-- ==== Sys2Proof/Word.lean ====
section
/-! DEFINITION. The two word types of the machine: the 8-bit byte and the 15-bit address. -/

namespace Sys2Proof

/-- An 8-bit register, memory byte, status byte or bus byte (R5, R21, R60). Bit 0 is the least significant (R8). -/
abbrev Byte := BitVec 8

/-- A 15-bit address: bits 14 and 13 the page, bits 12 to 0 the place in the page (R26, R60, R61). -/
abbrev Addr := BitVec 15

end Sys2Proof
end

