-- ==== Sys2Proof/Machine/Bits.lean ====
section
/-! DEFINITION. Bit fields of bytes and addresses: the stepping of addresses inside a page, the sign extension of a
displacement, the byte order of an address, single bits of a status byte. -/

namespace Sys2Proof.Machine

/-- `inpage(a, k)`: the low 13 bits step, bits 14 and 13 stay (R28). -/
def inpage (a : Addr) (k : BitVec 13) : Addr :=
  a.extractLsb' 13 2 ++ (a.extractLsb' 0 13 + k)

/-- `{ a[14:13], off }`: the address `off` in the page of `a` (R107). -/
def samePage (a : Addr) (off : BitVec 13) : Addr :=
  a.extractLsb' 13 2 ++ off

/-- `sext_7`: a 7-bit displacement as a two's complement number, to be added modulo 8,192 (R10, R102). -/
def sext7 (v : BitVec 7) : BitVec 13 :=
  v.signExtend 13

/-- The 15-bit address of a two-byte pointer, high byte first in memory; bit 7 of the high byte is ignored (R64, R101). -/
def pointerAddr (hi lo : Byte) : Addr :=
  hi.extractLsb' 0 7 ++ lo

/-- Write bit `k` of a byte. -/
def setBit (v : Byte) (k : Nat) (b : Bool) : Byte :=
  if b then v ||| (1#8 <<< k) else v &&& ~~~(1#8 <<< k)

end Sys2Proof.Machine
end

