-- ==== Sys2Proof/Config.lean ====
section
/-! DEFINITION. What an implementation or a platform fixes (R5): the parameters of the machine, which `State` holds so that a
statement about every state is about every parameter, and the free values, opaque constants that nothing can evaluate. -/

namespace Sys2Proof

/-- `COND3`: what the condition d = 3 means in the true-condition instructions (R200, D14). -/
inductive Config.Cond3 where
  | unconditional
  | literal
deriving DecidableEq, Repr

/-- `FLAG_PROFILE`: the flags of STRZ, SPSU, SPSL, DAR, RRL and RRR (R261, R306, R340, D27; section 3 of
93_implementation_defined.md). -/
inductive Config.FlagProfile where
  | card
  | manual
deriving DecidableEq, Repr

/-- `PSU43`: whether PSU bits 4 and 3 read as zero or are storage (R34, D23). -/
inductive Config.Psu43 where
  | zero
  | storage
deriving DecidableEq, Repr

/-- What `MEM_MAP` says an address is (R62, R63, D31). -/
inductive Config.MemKind where
  | ram
  | rom
  | device
  | empty
deriving DecidableEq, Repr

/-- One entry of `MEM_MAP`: `size` addresses from `base` on are of one kind. -/
structure Config.Region where
  base : Nat
  size : Nat
  kind : Config.MemKind
deriving DecidableEq, Repr

/-- The parameters of the machine (R5). No step changes them. -/
structure Config.Params where
  cond3 : Config.Cond3
  flagProfile : Config.FlagProfile
  psu43 : Config.Psu43
  memMap : List Config.Region
deriving DecidableEq, Repr

/-- The spec's defaults (R5), with no region listed in `MEM_MAP`: DESIGN CHOICE, all 32,768 addresses RAM (unsafe; log 5). -/
def Config.defaults : Config.Params :=
  { cond3 := .unconditional, flagProfile := .card, psu43 := .zero, memMap := [] }

/-- The byte an address reads as when memory does not list it. DESIGN CHOICE (unsafe; log 4): the spec gives RAM no content
at power-on (R57, U8). -/
def Config.unwritten : Byte := 0x00

/-- A byte the spec leaves open, the `n`th free value: a read of an empty address (U9), a port or device read beyond the
bytes the environment has ready (U11, U12), a register after RESET (U4 to U7, U25). Free (log 8, 9, 10). -/
opaque Config.freeByte : Nat → BitVec 8

/-- An address the spec leaves open: a stack entry after RESET (U7). Free (log 10). -/
opaque Config.freeAddr : Nat → BitVec 15

/-- A condition code the spec leaves open: CC after DAR under `FLAG_PROFILE = manual` (U22). Free (log 13). -/
opaque Config.freeCond : Nat → BitVec 2

end Sys2Proof
end

