-- ==== Sys2Proof/Syntax.lean ====
section
/-! DEFINITION. The instructions of the Signetics 2650 as terms: one constructor of `Instr` per row of
spec/opcode_table.json, its operands already taken apart (R90 to R98, R102, R106, R110). -/

namespace Sys2Proof

/-- A register number n of "Rn (n=0-3)" (R23, R92); which copy of R1 to R3 it names depends on `PSL.RS` (R22). -/
inductive Reg where
  | r0
  | r1
  | r2
  | r3
deriving DecidableEq, Repr

/-- A 2-bit condition: the `d` of an opcode or the `PSL.CC` it is compared with (R39, R93). -/
abbrev Cond := BitVec 2

/-- The operand `l` of formats R and ER: indirect flag and 7-bit two's complement displacement (R102). -/
structure RelOperand where
  indirect : Bool
  disp : BitVec 7
deriving DecidableEq, Repr

/-- The index control IC of an operand `a` (R106): no indexing, auto-increment, auto-decrement, plain indexing. -/
inductive IndexControl where
  | plain
  | autoIncrement
  | autoDecrement
  | indexed
deriving DecidableEq, Repr

/-- The operand `a` of format A: indirect flag, index control and 13-bit address in the instruction's page (R106). -/
structure AbsOperand where
  indirect : Bool
  index : IndexControl
  addr : BitVec 13
deriving DecidableEq, Repr

/-- The operand `b` of formats B and EB: indirect flag and 15-bit address (R110). -/
structure BranchOperand where
  indirect : Bool
  addr : Addr
deriving DecidableEq, Repr

/-- The 75 instructions, in the order of spec/opcode_table.json. -/
inductive Instr where
  /-- `LODZ`: R0 = r (R303). -/
  | lodz (r : Reg)
  /-- `LODI`: r = imm (R301). -/
  | lodi (r : Reg) (imm : Byte)
  /-- `LODR`: r = byte at l (R302). -/
  | lodr (r : Reg) (l : RelOperand)
  /-- `LODA`: r = byte at a (R300). -/
  | loda (r : Reg) (a : AbsOperand)
  /-- `SPSU`: R0 = PSU (R270). -/
  | spsu
  /-- `SPSL`: R0 = PSL (R269). -/
  | spsl
  /-- `RETC`: return if d = c (R241). -/
  | retc (d : Cond)
  /-- `BCTR`: branch if d = c (R206). -/
  | bctr (d : Cond) (l : RelOperand)
  /-- `BCTA`: branch if d = c (R204). -/
  | bcta (d : Cond) (b : BranchOperand)
  /-- `EORZ`: R0 = R0 ^ r (R179). -/
  | eorz (r : Reg)
  /-- `EORI`: r = r ^ imm (R177). -/
  | eori (r : Reg) (imm : Byte)
  /-- `EORR`: r = r ^ byte at l (R178). -/
  | eorr (r : Reg) (l : RelOperand)
  /-- `EORA`: r = r ^ byte at a (R176). -/
  | eora (r : Reg) (a : AbsOperand)
  /-- `REDC`: r = control port (R322). -/
  | redc (r : Reg)
  /-- `RETE`: return if d = c, II = 0 (R242). -/
  | rete (d : Cond)
  /-- `BSTR`: call if d = c (R238). -/
  | bstr (d : Cond) (l : RelOperand)
  /-- `BSTA`: call if d = c (R237). -/
  | bsta (d : Cond) (b : BranchOperand)
  /-- `HALT`: enter the wait state (R290). -/
  | halt
  /-- `ANDZ`: R0 = R0 & r, r not 0 (R175). -/
  | andz (r : Reg)
  /-- `ANDI`: r = r & imm (R173). -/
  | andi (r : Reg) (imm : Byte)
  /-- `ANDR`: r = r & byte at l (R174). -/
  | andr (r : Reg) (l : RelOperand)
  /-- `ANDA`: r = r & byte at a (R172). -/
  | anda (r : Reg) (a : AbsOperand)
  /-- `RRR`: rotate r right (R343). -/
  | rrr (r : Reg)
  /-- `REDE`: r = extended port (R324). -/
  | rede (r : Reg) (port : Byte)
  /-- `BRNR`: branch if r is not 0 (R212). -/
  | brnr (r : Reg) (l : RelOperand)
  /-- `BRNA`: branch if r is not 0 (R211). -/
  | brna (r : Reg) (b : BranchOperand)
  /-- `IORZ`: R0 = R0 | r (R183). -/
  | iorz (r : Reg)
  /-- `IORI`: r = r | imm (R181). -/
  | iori (r : Reg) (imm : Byte)
  /-- `IORR`: r = r | byte at l (R182). -/
  | iorr (r : Reg) (l : RelOperand)
  /-- `IORA`: r = r | byte at a (R180). -/
  | iora (r : Reg) (a : AbsOperand)
  /-- `REDD`: r = data port (R323). -/
  | redd (r : Reg)
  /-- `CPSU`: clear PSU bits under imm (R264). -/
  | cpsu (imm : Byte)
  /-- `CPSL`: clear PSL bits under imm (R263). -/
  | cpsl (imm : Byte)
  /-- `PPSU`: set PSU bits under imm (R268). -/
  | ppsu (imm : Byte)
  /-- `PPSL`: set PSL bits under imm (R267). -/
  | ppsl (imm : Byte)
  /-- `BSNR`: call if r is not 0 (R236). -/
  | bsnr (r : Reg) (l : RelOperand)
  /-- `BSNA`: call if r is not 0 (R235). -/
  | bsna (r : Reg) (b : BranchOperand)
  /-- `ADDZ`: R0 = R0 + r (R147). -/
  | addz (r : Reg)
  /-- `ADDI`: r = r + imm (R145). -/
  | addi (r : Reg) (imm : Byte)
  /-- `ADDR`: r = r + byte at l (R146). -/
  | addr (r : Reg) (l : RelOperand)
  /-- `ADDA`: r = r + byte at a (R144). -/
  | adda (r : Reg) (a : AbsOperand)
  /-- `LPSU`: PSU = R0 (R266). -/
  | lpsu
  /-- `LPSL`: PSL = R0 (R265). -/
  | lpsl
  /-- `DAR`: decimal adjust r (R152). -/
  | dar (r : Reg)
  /-- `BCFR`: branch if d is not c, d not 3 (R205). -/
  | bcfr (d : Cond) (l : RelOperand)
  /-- `ZBRR`: branch, zero page (R214). -/
  | zbrr (l : RelOperand)
  /-- `BCFA`: branch if d is not c, d not 3 (R203). -/
  | bcfa (d : Cond) (b : BranchOperand)
  /-- `BXA`: branch to b + R3 (R213). -/
  | bxa (b : BranchOperand)
  /-- `SUBZ`: R0 = R0 - r (R156). -/
  | subz (r : Reg)
  /-- `SUBI`: r = r - imm (R154). -/
  | subi (r : Reg) (imm : Byte)
  /-- `SUBR`: r = r - byte at l (R155). -/
  | subr (r : Reg) (l : RelOperand)
  /-- `SUBA`: r = r - byte at a (R153). -/
  | suba (r : Reg) (a : AbsOperand)
  /-- `WRTC`: control port = r (R325). -/
  | wrtc (r : Reg)
  /-- `TPSU`: test PSU bits under imm (R272). -/
  | tpsu (imm : Byte)
  /-- `TPSL`: test PSL bits under imm (R271). -/
  | tpsl (imm : Byte)
  /-- `BSFR`: call if d is not c, d not 3 (R234). -/
  | bsfr (d : Cond) (l : RelOperand)
  /-- `ZBSR`: call, zero page (R240). -/
  | zbsr (l : RelOperand)
  /-- `BSFA`: call if d is not c, d not 3 (R233). -/
  | bsfa (d : Cond) (b : BranchOperand)
  /-- `BSXA`: call b + R3 (R239). -/
  | bsxa (b : BranchOperand)
  /-- `NOP`: no operation (R291). -/
  | nop
  /-- `STRZ`: r = R0, r not 0 (R306). -/
  | strz (r : Reg)
  /-- `STRR`: byte at l = r (R305). -/
  | strr (r : Reg) (l : RelOperand)
  /-- `STRA`: byte at a = r (R304). -/
  | stra (r : Reg) (a : AbsOperand)
  /-- `RRL`: rotate r left (R342). -/
  | rrl (r : Reg)
  /-- `WRTE`: extended port = r (R327). -/
  | wrte (r : Reg) (port : Byte)
  /-- `BIRR`: r = r + 1, branch if r is not 0 (R210). -/
  | birr (r : Reg) (l : RelOperand)
  /-- `BIRA`: r = r + 1, branch if r is not 0 (R209). -/
  | bira (r : Reg) (b : BranchOperand)
  /-- `COMZ`: compare R0 with r (R151). -/
  | comz (r : Reg)
  /-- `COMI`: compare r with imm (R149). -/
  | comi (r : Reg) (imm : Byte)
  /-- `COMR`: compare r with byte at l (R150). -/
  | comr (r : Reg) (l : RelOperand)
  /-- `COMA`: compare r with byte at a (R148). -/
  | coma (r : Reg) (a : AbsOperand)
  /-- `WRTD`: data port = r (R326). -/
  | wrtd (r : Reg)
  /-- `TMI`: test r bits under imm (R184). -/
  | tmi (r : Reg) (imm : Byte)
  /-- `BDRR`: r = r - 1, branch if r is not 0 (R208). -/
  | bdrr (r : Reg) (l : RelOperand)
  /-- `BDRA`: r = r - 1, branch if r is not 0 (R207). -/
  | bdra (r : Reg) (b : BranchOperand)
deriving DecidableEq, Repr

end Sys2Proof
end

