-- ==== Sys2Proof/Machine/State.lean ====
section
/-! DEFINITION. The state of the machine as plain data (R20), with the parameters (R5) and the environment's inputs and
outputs (R6) a step reads and writes; the reasons a step can stop; the state after reset. -/

namespace Sys2Proof.Machine

/-- Registers R1, R2, R3 of one bank (R22). -/
structure RegBank where
  r1 : Byte
  r2 : Byte
  r3 : Byte
deriving DecidableEq, Repr

/-- Memory: (address, byte) pairs, addresses strictly rising, no byte equal to `Config.unwritten` (`Memory.wf`, R60). -/
abbrev Memory := List Host.Cell

/-- The levels the environment drives at one instruction boundary (R6, R31, R353, R357, R390). `intreq` and `reset` are true
when the request is asserted, whatever the polarity of the pin (R55). -/
structure Pins where
  sense : Bool
  intreq : Bool
  vector : Byte
  reset : Bool
deriving DecidableEq, Repr

/-- An I/O port: non-extended control, non-extended data, extended port number p (R69). -/
inductive Port where
  | ctrl
  | data
  | ext (p : Byte)
deriving DecidableEq, Repr

/-- What the environment observes on the bus (R6): an I/O transfer (R70, R71), an access to a device address (R62, R63), an
interrupt acknowledge with the vector byte (R357). -/
inductive Event where
  | ioRead (port : Port) (v : Byte)
  | ioWrite (port : Port) (v : Byte)
  | deviceRead (a : Addr) (v : Byte)
  | deviceWrite (a : Addr) (v : Byte)
  | intAck (v : Byte)
deriving DecidableEq, Repr

/-- The state. The first nine fields are the architectural state of R20; `params` are the parameters of R5; the rest is the
environment (R6) and the counter of free values, the model's own. -/
@[ext]
structure State where
  /-- R0, the accumulator (R21). -/
  r0 : Byte
  /-- R1 to R3 of bank 0 (R22). -/
  bank0 : RegBank
  /-- R1 to R3 of bank 1 (R22). -/
  bank1 : RegBank
  /-- The program counter: the address of the next instruction's first byte (R26). -/
  pc : Addr
  /-- Program status upper (R30); bit 7 is not stored and stays 0 (R31, log 15). -/
  psu : Byte
  /-- Program status lower (R38). -/
  psl : Byte
  /-- The return address stack RAS[0] to RAS[7] (R50). -/
  ras : Vector Addr 8
  /-- The wait-state flag (R54). -/
  waiting : Bool
  /-- The 32,768 bytes of memory (R60). -/
  mem : Memory
  /-- The parameters (R5). -/
  params : Config.Params
  /-- The levels of the input pins at this boundary (R6). -/
  pins : Pins
  /-- The levels at the boundaries to come; when none is left the pins keep their levels (log 7). -/
  schedule : List Pins
  /-- The bytes the environment has ready for port reads and device reads, in the order of the reads (log 8). -/
  inputs : List Byte
  /-- The index of the next free value (log 21). -/
  freeCount : Nat
  /-- The bus events so far, the newest first (log 14). -/
  events : List Event
deriving DecidableEq, Repr

/-- Why the machine stops. -/
inductive Fault where
  /-- The byte fetched as an opcode belongs to no instruction: the model's outcome `fault ReservedOpcode(byte)` (R128).
  Raised by `step` alone, before anything changes. Safe: the model stops where the chip does something unknown (log 12). -/
  | reservedOpcode (op : Byte)
deriving DecidableEq, Repr

/-- Why the model has no meaning for an instruction. -/
inductive Refusal where
  /-- The instruction has no meaning yet; answered only by an arm of `exec`. Safe: the model stops. No arm answers it now. -/
  | notModelled (mnemonic : String)
deriving DecidableEq, Repr

/-- The machine right after reset (R57, R390): pc, II and `waiting` as the spec says; every other register zero and memory
empty, DESIGN CHOICE (unsafe; log 1, 2, 3, 4); default parameters (log 5, 6); input pins released, no input ready, nothing
observed (DESIGN CHOICE; log 7, 8, 14, 21). -/
def State.reset : State where
  r0 := 0x00
  bank0 := { r1 := 0x00, r2 := 0x00, r3 := 0x00 }
  bank1 := { r1 := 0x00, r2 := 0x00, r3 := 0x00 }
  pc := 0x0000
  psu := 0x00
  psl := 0x00
  ras := Vector.replicate 8 0x0000
  waiting := false
  mem := []
  params := Config.defaults
  pins := { sense := false, intreq := false, vector := 0x00, reset := false }
  schedule := []
  inputs := []
  freeCount := 0
  events := []

end Sys2Proof.Machine
end

