-- ==== Sys2Proof/Machine/Flags.lean ====
section
/-! DEFINITION. The fields of PSL and PSU, and every flag computation: condition code, add, subtract, compare, test under
mask, decimal adjust, rotate. Sums are exact in `Nat` and narrowed at the end. -/

namespace Sys2Proof.Machine

/-- `PSL.CC`, bits 7 and 6 (R39). -/
def pslCC (psl : Byte) : Cond := psl.extractLsb' 6 2
/-- `PSL.IDC`, bit 5 (R41). -/
def pslIDC (psl : Byte) : Bool := psl.getLsbD 5
/-- `PSL.RS`, bit 4 (R42). -/
def pslRS (psl : Byte) : Bool := psl.getLsbD 4
/-- `PSL.WC`, bit 3 (R43). -/
def pslWC (psl : Byte) : Bool := psl.getLsbD 3
/-- `PSL.OVF`, bit 2 (R44). -/
def pslOVF (psl : Byte) : Bool := psl.getLsbD 2
/-- `PSL.COM`, bit 1 (R45). -/
def pslCOM (psl : Byte) : Bool := psl.getLsbD 1
/-- `PSL.C`, bit 0 (R46). -/
def pslC (psl : Byte) : Bool := psl.getLsbD 0

/-- Write CC and keep the other six bits (R39). -/
def withCC (psl : Byte) (cc : Cond) : Byte := cc ++ psl.extractLsb' 0 6
/-- Write IDC (R41). -/
def withIDC (psl : Byte) (b : Bool) : Byte := setBit psl 5 b
/-- Write OVF (R44). -/
def withOVF (psl : Byte) (b : Bool) : Byte := setBit psl 2 b
/-- Write C (R46). -/
def withC (psl : Byte) (b : Bool) : Byte := setBit psl 0 b

/-- `PSU.II`, bit 5 (R33). -/
def psuII (psu : Byte) : Bool := psu.getLsbD 5
/-- `PSU.F`, bit 6 (R32). -/
def psuF (psu : Byte) : Bool := psu.getLsbD 6
/-- `PSU.SP`, bits 2 to 0 (R35). -/
def psuSP (psu : Byte) : BitVec 3 := psu.extractLsb' 0 3
/-- Write II (R33). -/
def withII (psu : Byte) (b : Bool) : Byte := setBit psu 5 b
/-- Write SP and keep the other five bits (R35). -/
def withSP (psu : Byte) (sp : BitVec 3) : Byte := psu.extractLsb' 3 5 ++ sp

/-- `PSU_WMASK`, the bits of PSU that LPSU, CPSU and PPSU write (R36). -/
def psuWriteMask (p : Config.Psu43) : Byte :=
  match p with
  | .zero => 0x67
  | .storage => 0x7F

/-- The condition code of an 8-bit result: 01 positive, 00 zero, 10 negative (R40). -/
def ccOf (v : Byte) : Cond :=
  if v = 0 then 0b00 else if v.getLsbD 7 then 0b10 else 0b01

/-- A result and the PSL it leaves. -/
structure AluResult where
  value : Byte
  psl : Byte
deriving DecidableEq, Repr

/-- PSL after a sum: C, IDC, OVF and CC written, RS, WC and COM kept (R142, R143). -/
def sumFlags (psl : Byte) (value : Byte) (c idc ovf : Bool) : Byte :=
  withCC (withC (withIDC (withOVF psl ovf) idc) c) (ccOf value)

/-- `Add8` (R142): C enters only with WC = 1. -/
def add8 (psl a b : Byte) : AluResult :=
  let cin := if pslWC psl && pslC psl then 1 else 0
  let t := a.toNat + b.toNat + cin
  let value := BitVec.ofNat 8 t
  let idc := decide (a.toNat % 16 + b.toNat % 16 + cin > 15)
  let ovf := a.msb == b.msb && value.msb != a.msb
  { value := value, psl := sumFlags psl value (decide (t > 255)) idc ovf }

/-- `Sub8` (R143): the sum of `a`, the complement of `b` and a carry in that says "no borrow". -/
def sub8 (psl a b : Byte) : AluResult :=
  let cin := if pslWC psl && !pslC psl then 0 else 1
  let nb := ~~~b
  let t := a.toNat + nb.toNat + cin
  let value := BitVec.ofNat 8 t
  let idc := decide (a.toNat % 16 + nb.toNat % 16 + cin > 15)
  let ovf := a.msb != b.msb && value.msb != a.msb
  { value := value, psl := sumFlags psl value (decide (t > 255)) idc ovf }

/-- The condition code of a comparison of two integers: 01 greater, 00 equal, 10 less (R141). -/
def ccOfCompare (u v : Int) : Cond :=
  if u > v then 0b01 else if u = v then 0b00 else 0b10

/-- `Compare` (R141): unsigned with COM = 1, two's complement with COM = 0; only CC is written. -/
def compare8 (psl a b : Byte) : Byte :=
  withCC psl (if pslCOM psl then ccOfCompare a.toNat b.toNat else ccOfCompare a.toInt b.toInt)

/-- `TestMask` (R171): 00 when every bit of `v` under `m` is 1, else 10. -/
def testMask (psl v m : Byte) : Byte :=
  withCC psl (if v &&& m = m then 0b00 else 0b10)

/-- DAR's adjustment (R152): ten to the high digit if C = 0, ten to the low digit, without a carry across, if IDC = 0. -/
def decimalAdjust (psl v : Byte) : Byte :=
  let v := if pslC psl then v else v + 0xA0
  if pslIDC psl then v else v.extractLsb' 4 4 ++ (v.extractLsb' 0 4 + 0xA)

/-- The flags of a rotate besides its value: C with WC = 1 (R340); under `FLAG_PROFILE = manual` also CC, and with WC = 1 IDC
from bit 5 of the result and OVF from a change of bit 7 (section 3 of 93_implementation_defined.md). -/
def rotateFlags (profile : Config.FlagProfile) (psl old value : Byte) (out : Bool) : Byte :=
  let psl := if pslWC psl then withC psl out else psl
  match profile with
  | .card => psl
  | .manual =>
    let psl := if pslWC psl then withOVF (withIDC psl (value.getLsbD 5)) (value.msb != old.msb) else psl
    withCC psl (ccOf value)

/-- `RotL` (R340, R342): toward bit 7, through C with WC = 1. -/
def rotateLeft (profile : Config.FlagProfile) (psl v : Byte) : AluResult :=
  let low := if pslWC psl then pslC psl else v.getLsbD 7
  let value : Byte := v.extractLsb' 0 7 ++ BitVec.ofBool low
  { value := value, psl := rotateFlags profile psl v value (v.getLsbD 7) }

/-- `RotR` (R340, R343): toward bit 0, through C with WC = 1. -/
def rotateRight (profile : Config.FlagProfile) (psl v : Byte) : AluResult :=
  let high := if pslWC psl then pslC psl else v.getLsbD 0
  let value : Byte := BitVec.ofBool high ++ v.extractLsb' 1 7
  { value := value, psl := rotateFlags profile psl v value (v.getLsbD 0) }

end Sys2Proof.Machine
end

