-- ==== Sys2Proof/Machine/Memory.lean ====
section
/-! DEFINITION. Memory as a list in canonical form: reading and writing one byte, and what `MEM_MAP` says an address is
(R60 to R63). -/

namespace Sys2Proof.Machine

/-- The canonical form: addresses strictly rising, each below 32,768 (R60), no byte equal to what an unlisted address
reads as. -/
abbrev Memory.wf (m : Memory) : Prop :=
  m.Pairwise (fun c d => c.1 < d.1) ∧ ∀ c ∈ m, c.1 < 32768 ∧ c.2 ≠ Config.unwritten

/-- The byte held at an address (R62). -/
def Memory.read : Memory → Nat → Byte
  | [], _ => Config.unwritten
  | (k, w) :: m, a => if k = a then w else Memory.read m a

/-- A list of cells with one more in front, unless its byte is what an unlisted address reads as. -/
def Memory.consCell (a : Nat) (v : Byte) (m : Memory) : Memory :=
  if v = Config.unwritten then m else (a, v) :: m

/-- The memory with byte `v` at address `a` (R63), in canonical form again. -/
def Memory.write : Memory → Nat → Byte → Memory
  | [], a, v => Memory.consCell a v []
  | (k, w) :: m, a, v =>
    if a < k then Memory.consCell a v ((k, w) :: m)
    else if a = k then Memory.consCell a v m
    else (k, w) :: Memory.write m a v

/-- What `MEM_MAP` says an address is: the first region that holds it decides; an address in no region is RAM, DESIGN CHOICE
(unsafe; log 5). -/
def kindOf : List Config.Region → Nat → Config.MemKind
  | [], _ => .ram
  | r :: rs, a => if r.base ≤ a ∧ a < r.base + r.size then r.kind else kindOf rs a

/-- RAM and ROM: a read is the byte held, and has no side effect (R62, R67). -/
def plainKind (k : Config.MemKind) : Bool :=
  match k with
  | .ram => true
  | .rom => true
  | .device => false
  | .empty => false

end Sys2Proof.Machine
end

