-- ==== Sys2Proof/Machine/Ops.lean ====
section
/-! DEFINITION. The named operations over the state: registers, program counter, status bytes, return address stack, memory,
ports; the zero-page address, taking the interrupt, the return from it, and reset. -/

namespace Sys2Proof.Machine

/-! Registers. -/

/-- Register n of the bank RS = `b` (R22); R0 is in no bank (R21). -/
def State.regAt (s : State) (b : Bool) (r : Reg) : Byte :=
  let bank := if b then s.bank1 else s.bank0
  match r with
  | .r0 => s.r0
  | .r1 => bank.r1
  | .r2 => bank.r2
  | .r3 => bank.r3

/-- `x[n]`: register n through the bank `PSL.RS` selects (R23). -/
def State.reg (s : State) (r : Reg) : Byte :=
  s.regAt (pslRS s.psl) r

/-- A bank with one of R1 to R3 written. -/
def RegBank.set (k : RegBank) (r : Reg) (v : Byte) : RegBank :=
  match r with
  | .r0 => k
  | .r1 => { k with r1 := v }
  | .r2 => { k with r2 := v }
  | .r3 => { k with r3 := v }

/-- `x[n] <- v` through the bank `PSL.RS` selects (R23). -/
def State.setReg (s : State) (r : Reg) (v : Byte) : State :=
  { s with
    r0 := if r = .r0 then v else s.r0
    bank0 := if pslRS s.psl then s.bank0 else s.bank0.set r v
    bank1 := if pslRS s.psl then s.bank1.set r v else s.bank1 }

/-! Program counter and status bytes. -/

/-- `next(n)`: the address n bytes after `pc`, in its page (R28). -/
def State.nextAddr (s : State) (n : Nat) : Addr :=
  inpage s.pc (BitVec.ofNat 13 n)

/-- `pc <- t` (R27). -/
def State.setPc (s : State) (t : Addr) : State :=
  { s with pc := t }

/-- `pc <- next(n)`, the end of an instruction of n bytes that does not branch (R27). -/
def State.advance (s : State) (n : Nat) : State :=
  s.setPc (s.nextAddr n)

/-- Write PSL. -/
def State.setPsl (s : State) (v : Byte) : State :=
  { s with psl := v }

/-- `SetCC(v)` (R40). -/
def State.setCC (s : State) (v : Byte) : State :=
  s.setPsl (withCC s.psl (ccOf v))

/-- `SetCC(v)` under `FLAG_PROFILE = manual`, nothing under `card` (R261, R306, D27). -/
def State.setCCManual (s : State) (v : Byte) : State :=
  s.setPsl (match s.params.flagProfile with
    | .card => s.psl
    | .manual => withCC s.psl (ccOf v))

/-- `ReadPSU()` (R36): bit 7 is the SENSE pin now (R31, D39), bits 4 and 3 read 0 under `PSU43 = zero` (R34). -/
def State.readPsu (s : State) : Byte :=
  setBit (s.psu &&& psuWriteMask s.params.psu43) 7 s.pins.sense

/-- `WritePSU(v)`: only the writable bits change (R36). -/
def State.writePsu (s : State) (v : Byte) : State :=
  let mask := psuWriteMask s.params.psu43
  { s with psu := (s.psu &&& ~~~mask) ||| (v &&& mask) }

/-- The level of the FLAG pin: PSU.F (R32). -/
def State.flagPin (s : State) : Bool :=
  psuF s.psu

/-- The RUN/WAIT pin shows the wait state (R54). -/
def State.waitPin (s : State) : Bool :=
  s.waiting

/-! The return address stack. -/

/-- The entry of the stack with index `k` (R50). -/
def rasEntry (ras : Vector Addr 8) (k : BitVec 3) : Addr :=
  ras[k.toNat]'k.isLt

/-- `Push(v)`: store, then increment SP modulo 8 (R51, R53). -/
def State.push (s : State) (v : Addr) : State :=
  let sp := psuSP s.psu
  { s with ras := s.ras.set sp.toNat v sp.isLt, psu := withSP s.psu (sp + 1) }

/-- `pc <- Pop()`: decrement SP modulo 8, then fetch (R52, R53, R231). -/
def State.popPc (s : State) : State :=
  let sp := psuSP s.psu - 1
  { s with pc := rasEntry s.ras sp, psu := withSP s.psu sp }

/-! Bytes that come from outside, memory and ports. -/

/-- The next byte the environment delivers, and the state without it; when none is ready, a free value (R62, R70, U11, U12;
log 8). -/
def State.inputByte (s : State) : Byte × State :=
  match s.inputs with
  | b :: rest => (b, { s with inputs := rest })
  | [] => (Config.freeByte s.freeCount, { s with freeCount := s.freeCount + 1 })

/-- Record a bus event (R6; log 14). -/
def State.record (s : State) (e : Event) : State :=
  { s with events := e :: s.events }

/-- What `MEM_MAP` says the address is (R62). -/
def State.kindAt (s : State) (a : Addr) : Config.MemKind :=
  kindOf s.params.memMap a.toNat

/-- The byte memory holds at an address, without a bus access (R62). -/
def State.peek (s : State) (a : Addr) : Byte :=
  s.mem.read a.toNat

/-- `MemRead(addr, 1)` (R62): RAM and ROM answer the byte held, a device the environment's byte, an empty address a fresh
free value (log 8, 9). -/
def State.memRead (s : State) (a : Addr) : Byte × State :=
  match s.kindAt a with
  | .ram => (s.peek a, s)
  | .rom => (s.peek a, s)
  | .device => (s.inputByte.1, s.inputByte.2.record (.deviceRead a s.inputByte.1))
  | .empty => (Config.freeByte s.freeCount, { s with freeCount := s.freeCount + 1 })

/-- `MemWrite(addr, 1, v)` (R63): RAM takes the byte, ROM and empty addresses ignore it, a device receives it. -/
def State.memWrite (s : State) (a : Addr) (v : Byte) : State :=
  match s.kindAt a with
  | .ram => { s with mem := s.mem.write a.toNat v }
  | .rom => s
  | .device => s.record (.deviceWrite a v)
  | .empty => s

/-- `IORead(space, port)` (R70). -/
def State.ioRead (s : State) (p : Port) : Byte × State :=
  (s.inputByte.1, s.inputByte.2.record (.ioRead p s.inputByte.1))

/-- `IOWrite(space, port, v)`: an output event, no processor state changes (R71). -/
def State.ioWrite (s : State) (p : Port) (v : Byte) : State :=
  s.record (.ioWrite p v)

/-! Addresses the interrupt shares with the zero-page branches. -/

/-- `Indirect(ptr)`: the 15-bit address held at `ptr`, high byte first, the second byte in the page of the first (R101). -/
def State.indirect (s : State) (ptr : Addr) : Addr × State :=
  let hi := s.memRead ptr
  let lo := hi.2.memRead (inpage ptr 1)
  (pointerAddr hi.1 lo.1, lo.2)

/-- An address, taken through its pointer when the indirect flag is set (R101, R103, R104, R107, R111). -/
def State.indirectIf (s : State) (flag : Bool) (ea : Addr) : Addr × State :=
  if flag then s.indirect ea else (ea, s)

/-- `ZeroRelEA` (R104): the displacement counts from address 0 of page 0. -/
def State.zeroRelEA (s : State) (l : RelOperand) : Addr × State :=
  s.indirectIf l.indirect (inpage 0x0000 (sext7 l.disp))

/-! The interrupt and the return from it. -/

/-- A request is accepted at a boundary when INTREQ is asserted and II = 0 (R353, R354, R355). -/
def State.interruptAccepted (s : State) : Bool :=
  s.pins.intreq && !psuII s.psu

/-- `InterruptEntry()` (R358), with the vector byte read as an operand `l` (R357). -/
def State.interruptEntry (s : State) : State :=
  let v := s.pins.vector
  let s := ({ s with waiting := false } : State).record (.intAck v)
  let t := s.zeroRelEA { indirect := v.getLsbD 7, disp := v.extractLsb' 0 7 }
  let s := { t.2 with psu := withII t.2.psu true }
  (s.push s.pc).setPc t.1

/-- A taken RETE: the return, then II <- 0 (R242, R360). -/
def State.returnFromInterrupt (s : State) : State :=
  let s := s.popPc
  { s with psu := withII s.psu false }

/-! Reset. -/

/-- `Reset()` (R390): pc, II and `waiting` cleared, memory kept (R391), every other register a free value (R57; log 10). PSU
keeps only the bits that are stored (R34). -/
def State.resetStep (s : State) : State :=
  let n := s.freeCount
  { s with
    r0 := Config.freeByte n
    bank0 := { r1 := Config.freeByte (n + 1), r2 := Config.freeByte (n + 2), r3 := Config.freeByte (n + 3) }
    bank1 := { r1 := Config.freeByte (n + 4), r2 := Config.freeByte (n + 5), r3 := Config.freeByte (n + 6) }
    pc := 0x0000
    psu := withII (Config.freeByte (n + 7) &&& psuWriteMask s.params.psu43) false
    psl := Config.freeByte (n + 8)
    ras := Vector.ofFn fun k : Fin 8 => Config.freeAddr (n + 9 + k)
    waiting := false
    freeCount := n + 17 }

/-! The boundary between steps. -/

/-- The environment sets its pins for the next boundary (R353, R355; log 7). -/
def State.tick (s : State) : State :=
  match s.schedule with
  | [] => s
  | p :: rest => { s with pins := p, schedule := rest }

/-- The outcome of an instruction, with the pins of the next boundary. -/
def tickOutcome (o : Host.Outcome State Fault Refusal) : Host.Outcome State Fault Refusal :=
  match o with
  | .next s => .next s.tick
  | .fault r => .fault r
  | .refused r => .refused r

end Sys2Proof.Machine
end

