-- ==== Sys2Proof/Machine/Operands.lean ====
section
/-! DEFINITION. Every operand form: the effective addresses of formats R, A, B and EB (R103 to R112), the four forms of the
two-operand instructions (R140), and the ends of an instruction that go on, branch, call or return. -/

namespace Sys2Proof.Machine

/-- `RelEA` (R103): the displacement counts from the next instruction, in its page. -/
def State.relEA (s : State) (l : RelOperand) : Addr × State :=
  s.indirectIf l.indirect (inpage (s.nextAddr 2) (sext7 l.disp))

/-- `BranchAbsEA` (R111). -/
def State.branchAbsEA (s : State) (b : BranchOperand) : Addr × State :=
  s.indirectIf b.indirect b.addr

/-- `IndexedBranchEA` (R112): register 3 of the current bank is added after any indirection, modulo 32,768. -/
def State.indexedBranchEA (s : State) (b : BranchOperand) : Addr × State :=
  let e := s.branchAbsEA b
  (e.1 + (e.2.reg .r3).setWidth 15, e.2)

/-- The index register after the operand's own change of it: auto-increment and auto-decrement wrap modulo 256 and touch no
flag (R107, R109). -/
def State.stepIndex (s : State) (r : Reg) (x : IndexControl) : State :=
  match x with
  | .plain => s
  | .autoIncrement => s.setReg r (s.reg r + 1)
  | .autoDecrement => s.setReg r (s.reg r - 1)
  | .indexed => s

/-- What `AbsEA` answers (R107): the effective address, the register operated on, and the state after it. -/
structure AbsResult where
  ea : Addr
  n : Reg
  s : State

/-- `AbsEA` (R107, R108, R109): the in-page address, through its pointer if indirect, then indexed; with indexing the register
operated on is R0. -/
def State.absEA (s : State) (r : Reg) (a : AbsOperand) : AbsResult :=
  let e := s.indirectIf a.indirect (samePage s.pc a.addr)
  let t := e.2.stepIndex r a.index
  match a.index with
  | .plain => { ea := e.1, n := r, s := t }
  | _ => { ea := inpage e.1 ((t.reg r).setWidth 13), n := .r0, s := t }

/-- The operands of a two-operand instruction (R140): the number of the register operated on, the second operand, and the
state after the form has been evaluated. -/
structure Operand where
  n : Reg
  b : Byte
  s : State

/-- Form Z: R0 with register r (R140). -/
def State.operandZ (s : State) (r : Reg) : Operand :=
  { n := .r0, b := s.reg r, s := s }

/-- Form I: register r with the immediate (R140). -/
def State.operandI (s : State) (r : Reg) (imm : Byte) : Operand :=
  { n := r, b := imm, s := s }

/-- Form R: register r with the byte at the relative address (R140). -/
def State.operandR (s : State) (r : Reg) (l : RelOperand) : Operand :=
  let e := s.relEA l
  let m := e.2.memRead e.1
  { n := r, b := m.1, s := m.2 }

/-- Form A: the register `AbsEA` yields with the byte at its address (R140). -/
def State.operandA (s : State) (r : Reg) (a : AbsOperand) : Operand :=
  let e := s.absEA r a
  let m := e.s.memRead e.ea
  { n := e.n, b := m.1, s := m.2 }

/-- The first operand, register n, read after the form has been evaluated (R140). -/
def Operand.a (o : Operand) : Byte :=
  o.s.reg o.n

/-- Register n takes the value, PSL the flags. -/
def Operand.put (o : Operand) (x : AluResult) : State :=
  (o.s.setReg o.n x.value).setPsl x.psl

/-- `x[n] <- Add8(x[n], b)` (R142). -/
def Operand.add (o : Operand) : State :=
  o.put (add8 o.s.psl o.a o.b)

/-- `x[n] <- Sub8(x[n], b)` (R143). -/
def Operand.sub (o : Operand) : State :=
  o.put (sub8 o.s.psl o.a o.b)

/-- `Compare(x[n], b)` (R141). -/
def Operand.compare (o : Operand) : State :=
  o.s.setPsl (compare8 o.s.psl o.a o.b)

/-- `x[n] <- v; SetCC(x[n])`: loads and logical operations (R40, R170, R300). -/
def Operand.result (o : Operand) (v : Byte) : State :=
  o.put { value := v, psl := withCC o.s.psl (ccOf v) }

/-- `CondTrue(d)` (R200). -/
def State.condTrue (s : State) (d : Cond) : Bool :=
  match s.params.cond3 with
  | .unconditional => d == 3 || pslCC s.psl == d
  | .literal => pslCC s.psl == d

/-- `CondFalse(d)` (R200). -/
def State.condFalse (s : State) (d : Cond) : Bool :=
  pslCC s.psl != d

/-- `pc <- ea`, in the state the address computation left (R201). -/
def goto (e : Addr × State) : State :=
  e.2.setPc e.1

/-- A branch of `len` bytes: the address, with its pointer reads, is computed only when it is taken (R113, R201). -/
def State.branch (s : State) (taken : Bool) (len : Nat) (ea : State → Addr × State) : State :=
  if taken then goto (ea s) else s.advance len

/-- `Call(ea, len)`: push the address of the next instruction, then go (R230). -/
def State.call (s : State) (len : Nat) (ea : State → Addr × State) : State :=
  let e := ea s
  (e.2.push (s.nextAddr len)).setPc e.1

/-- A call of `len` bytes, taken or not (R230). -/
def State.callIf (s : State) (taken : Bool) (len : Nat) (ea : State → Addr × State) : State :=
  if taken then s.call len ea else s.advance len

end Sys2Proof.Machine
end

