-- ==== Sys2Proof/Machine/Arithmetic.lean ====
section
/-! DEFINITION. The arithmetic instructions: ADD, COM, DAR, SUB (spec/40_arithmetic.md). -/

namespace Sys2Proof.Machine

/-- `ADDA` (R144): add, register r, or R0 when indexed, with the byte at the absolute address. -/
def execAdda (r : Reg) (a : AbsOperand) (s : State) : Host.Outcome State Fault Refusal :=
  .next ((s.operandA r a).add.advance 3)

/-- `ADDI` (R145): add, register r with the immediate. -/
def execAddi (r : Reg) (imm : Byte) (s : State) : Host.Outcome State Fault Refusal :=
  .next ((s.operandI r imm).add.advance 2)

/-- `ADDR` (R146): add, register r with the byte at the relative address. -/
def execAddr (r : Reg) (l : RelOperand) (s : State) : Host.Outcome State Fault Refusal :=
  .next ((s.operandR r l).add.advance 2)

/-- `ADDZ` (R147): add, R0 with register r. -/
def execAddz (r : Reg) (s : State) : Host.Outcome State Fault Refusal :=
  .next ((s.operandZ r).add.advance 1)

/-- `COMA` (R148): compare, register r, or R0 when indexed, with the byte at the absolute address. -/
def execComa (r : Reg) (a : AbsOperand) (s : State) : Host.Outcome State Fault Refusal :=
  .next ((s.operandA r a).compare.advance 3)

/-- `COMI` (R149): compare, register r with the immediate. -/
def execComi (r : Reg) (imm : Byte) (s : State) : Host.Outcome State Fault Refusal :=
  .next ((s.operandI r imm).compare.advance 2)

/-- `COMR` (R150): compare, register r with the byte at the relative address. -/
def execComr (r : Reg) (l : RelOperand) (s : State) : Host.Outcome State Fault Refusal :=
  .next ((s.operandR r l).compare.advance 2)

/-- `COMZ` (R151): compare, R0 with register r. -/
def execComz (r : Reg) (s : State) : Host.Outcome State Fault Refusal :=
  .next ((s.operandZ r).compare.advance 1)

/-- `DAR` (R152): decimal adjust by C and IDC, which are kept; CC is kept under `card` and a free value under `manual`
(U22; log 13). -/
def execDar (r : Reg) (s : State) : Host.Outcome State Fault Refusal :=
  .next (({ s.setReg r (decimalAdjust s.psl (s.reg r)) with
    psl := match s.params.flagProfile with
      | .card => s.psl
      | .manual => withCC s.psl (Config.freeCond s.freeCount)
    freeCount := match s.params.flagProfile with
      | .card => s.freeCount
      | .manual => s.freeCount + 1 } : State).advance 1)

/-- `SUBA` (R153): subtract, register r, or R0 when indexed, with the byte at the absolute address. -/
def execSuba (r : Reg) (a : AbsOperand) (s : State) : Host.Outcome State Fault Refusal :=
  .next ((s.operandA r a).sub.advance 3)

/-- `SUBI` (R154): subtract, register r with the immediate. -/
def execSubi (r : Reg) (imm : Byte) (s : State) : Host.Outcome State Fault Refusal :=
  .next ((s.operandI r imm).sub.advance 2)

/-- `SUBR` (R155): subtract, register r with the byte at the relative address. -/
def execSubr (r : Reg) (l : RelOperand) (s : State) : Host.Outcome State Fault Refusal :=
  .next ((s.operandR r l).sub.advance 2)

/-- `SUBZ` (R156): subtract, R0 with register r. -/
def execSubz (r : Reg) (s : State) : Host.Outcome State Fault Refusal :=
  .next ((s.operandZ r).sub.advance 1)

end Sys2Proof.Machine
end

