-- ==== Sys2Proof/Machine/Branch.lean ====
section
/-! DEFINITION. The branch instructions (spec/42_branch.md). None writes a flag, and none a register but the counted one. -/

namespace Sys2Proof.Machine

/-- `BCFA` (R203): branch when CC differs from d. -/
def execBcfa (d : Cond) (b : BranchOperand) (s : State) : Host.Outcome State Fault Refusal :=
  .next (s.branch (s.condFalse d) 3 fun s => s.branchAbsEA b)

/-- `BCFR` (R205): branch when CC differs from d. -/
def execBcfr (d : Cond) (l : RelOperand) (s : State) : Host.Outcome State Fault Refusal :=
  .next (s.branch (s.condFalse d) 2 fun s => s.relEA l)

/-- `BCTA` (R204): branch when the condition d holds. -/
def execBcta (d : Cond) (b : BranchOperand) (s : State) : Host.Outcome State Fault Refusal :=
  .next (s.branch (s.condTrue d) 3 fun s => s.branchAbsEA b)

/-- `BCTR` (R206): branch when the condition d holds. -/
def execBctr (d : Cond) (l : RelOperand) (s : State) : Host.Outcome State Fault Refusal :=
  .next (s.branch (s.condTrue d) 2 fun s => s.relEA l)

/-- `BDRA` (R207): decrement register r modulo 256, then branch if it is not zero; no flag. -/
def execBdra (r : Reg) (b : BranchOperand) (s : State) : Host.Outcome State Fault Refusal :=
  let s := s.setReg r (s.reg r - 1)
  .next (s.branch (s.reg r != 0) 3 fun s => s.branchAbsEA b)

/-- `BDRR` (R208): decrement register r modulo 256, then branch if it is not zero; no flag. -/
def execBdrr (r : Reg) (l : RelOperand) (s : State) : Host.Outcome State Fault Refusal :=
  let s := s.setReg r (s.reg r - 1)
  .next (s.branch (s.reg r != 0) 2 fun s => s.relEA l)

/-- `BIRA` (R209): increment register r modulo 256, then branch if it is not zero; no flag. -/
def execBira (r : Reg) (b : BranchOperand) (s : State) : Host.Outcome State Fault Refusal :=
  let s := s.setReg r (s.reg r + 1)
  .next (s.branch (s.reg r != 0) 3 fun s => s.branchAbsEA b)

/-- `BIRR` (R210): increment register r modulo 256, then branch if it is not zero; no flag. -/
def execBirr (r : Reg) (l : RelOperand) (s : State) : Host.Outcome State Fault Refusal :=
  let s := s.setReg r (s.reg r + 1)
  .next (s.branch (s.reg r != 0) 2 fun s => s.relEA l)

/-- `BRNA` (R211): branch if register r is not zero. -/
def execBrna (r : Reg) (b : BranchOperand) (s : State) : Host.Outcome State Fault Refusal :=
  .next (s.branch (s.reg r != 0) 3 fun s => s.branchAbsEA b)

/-- `BRNR` (R212): branch if register r is not zero. -/
def execBrnr (r : Reg) (l : RelOperand) (s : State) : Host.Outcome State Fault Refusal :=
  .next (s.branch (s.reg r != 0) 2 fun s => s.relEA l)

/-- `BXA` (R213): branch to the address plus register 3. -/
def execBxa (b : BranchOperand) (s : State) : Host.Outcome State Fault Refusal :=
  .next (goto (s.indexedBranchEA b))

/-- `ZBRR` (R214): branch relative to address 0 of page 0. -/
def execZbrr (l : RelOperand) (s : State) : Host.Outcome State Fault Refusal :=
  .next (goto (s.zeroRelEA l))

end Sys2Proof.Machine
end

