-- ==== Sys2Proof/Machine/InputOutput.lean ====
section
/-! DEFINITION. Input and output (spec/47_io.md). -/

namespace Sys2Proof.Machine

/-- `REDC` (R322): register r takes the byte of the port; CC from it. -/
def execRedc (r : Reg) (s : State) : Host.Outcome State Fault Refusal :=
  let v := s.ioRead .ctrl
  .next (((v.2.setReg r v.1).setCC v.1).advance 1)

/-- `REDD` (R323): register r takes the byte of the port; CC from it. -/
def execRedd (r : Reg) (s : State) : Host.Outcome State Fault Refusal :=
  let v := s.ioRead .data
  .next (((v.2.setReg r v.1).setCC v.1).advance 1)

/-- `REDE` (R324): register r takes the byte of the port; CC from it. -/
def execRede (r : Reg) (port : Byte) (s : State) : Host.Outcome State Fault Refusal :=
  let v := s.ioRead (.ext port)
  .next (((v.2.setReg r v.1).setCC v.1).advance 2)

/-- `WRTC` (R325): the port receives register r; no processor state but pc changes. -/
def execWrtc (r : Reg) (s : State) : Host.Outcome State Fault Refusal :=
  .next ((s.ioWrite .ctrl (s.reg r)).advance 1)

/-- `WRTD` (R326): the port receives register r; no processor state but pc changes. -/
def execWrtd (r : Reg) (s : State) : Host.Outcome State Fault Refusal :=
  .next ((s.ioWrite .data (s.reg r)).advance 1)

/-- `WRTE` (R327): the port receives register r; no processor state but pc changes. -/
def execWrte (r : Reg) (port : Byte) (s : State) : Host.Outcome State Fault Refusal :=
  .next ((s.ioWrite (.ext port) (s.reg r)).advance 2)

end Sys2Proof.Machine
end

