-- ==== Sys2Proof/Machine/LoadStore.lean ====
section
/-! DEFINITION. Loads and stores (spec/46_load_store.md). -/

namespace Sys2Proof.Machine

/-- `LODA` (R300): register r, or R0 when indexed, takes the byte at the absolute address; CC from it. -/
def execLoda (r : Reg) (a : AbsOperand) (s : State) : Host.Outcome State Fault Refusal :=
  let o := s.operandA r a
  .next ((o.result o.b).advance 3)

/-- `LODI` (R301): register r takes the immediate; CC from it. -/
def execLodi (r : Reg) (imm : Byte) (s : State) : Host.Outcome State Fault Refusal :=
  let o := s.operandI r imm
  .next ((o.result o.b).advance 2)

/-- `LODR` (R302): register r takes the byte at the relative address; CC from it. -/
def execLodr (r : Reg) (l : RelOperand) (s : State) : Host.Outcome State Fault Refusal :=
  let o := s.operandR r l
  .next ((o.result o.b).advance 2)

/-- `LODZ` (R303): R0 takes register r; CC from it. Register 0 keeps R0 and sets CC (R129). -/
def execLodz (r : Reg) (s : State) : Host.Outcome State Fault Refusal :=
  let o := s.operandZ r
  .next ((o.result o.b).advance 1)

/-- `STRA` (R304): the byte at the absolute address takes register r, or R0 when indexed; the target is not read. -/
def execStra (r : Reg) (a : AbsOperand) (s : State) : Host.Outcome State Fault Refusal :=
  let e := s.absEA r a
  .next ((e.s.memWrite e.ea (e.s.reg e.n)).advance 3)

/-- `STRR` (R305): the byte at the relative address takes register r. -/
def execStrr (r : Reg) (l : RelOperand) (s : State) : Host.Outcome State Fault Refusal :=
  let e := s.relEA l
  .next ((e.2.memWrite e.1 (e.2.reg r)).advance 2)

/-- `STRZ` (R306): register r takes R0; CC is written under `manual` only. -/
def execStrz (r : Reg) (s : State) : Host.Outcome State Fault Refusal :=
  .next (((s.setReg r s.r0).setCCManual s.r0).advance 1)

end Sys2Proof.Machine
end

