-- ==== Sys2Proof/Machine/Logical.lean ====
section
/-! DEFINITION. The logical instructions: AND, EOR, IOR, TMI (spec/41_logical.md). -/

namespace Sys2Proof.Machine

/-- `ANDA` (R172): AND, register r, or R0 when indexed, with the byte at the absolute address; CC from the result. -/
def execAnda (r : Reg) (a : AbsOperand) (s : State) : Host.Outcome State Fault Refusal :=
  let o := s.operandA r a
  .next ((o.result (o.a &&& o.b)).advance 3)

/-- `ANDI` (R173): AND, register r with the immediate; CC from the result. -/
def execAndi (r : Reg) (imm : Byte) (s : State) : Host.Outcome State Fault Refusal :=
  let o := s.operandI r imm
  .next ((o.result (o.a &&& o.b)).advance 2)

/-- `ANDR` (R174): AND, register r with the byte at the relative address; CC from the result. -/
def execAndr (r : Reg) (l : RelOperand) (s : State) : Host.Outcome State Fault Refusal :=
  let o := s.operandR r l
  .next ((o.result (o.a &&& o.b)).advance 2)

/-- `ANDZ` (R175): AND, R0 with register r; CC from the result. -/
def execAndz (r : Reg) (s : State) : Host.Outcome State Fault Refusal :=
  let o := s.operandZ r
  .next ((o.result (o.a &&& o.b)).advance 1)

/-- `EORA` (R176): exclusive OR, register r, or R0 when indexed, with the byte at the absolute address; CC from the result. -/
def execEora (r : Reg) (a : AbsOperand) (s : State) : Host.Outcome State Fault Refusal :=
  let o := s.operandA r a
  .next ((o.result (o.a ^^^ o.b)).advance 3)

/-- `EORI` (R177): exclusive OR, register r with the immediate; CC from the result. -/
def execEori (r : Reg) (imm : Byte) (s : State) : Host.Outcome State Fault Refusal :=
  let o := s.operandI r imm
  .next ((o.result (o.a ^^^ o.b)).advance 2)

/-- `EORR` (R178): exclusive OR, register r with the byte at the relative address; CC from the result. -/
def execEorr (r : Reg) (l : RelOperand) (s : State) : Host.Outcome State Fault Refusal :=
  let o := s.operandR r l
  .next ((o.result (o.a ^^^ o.b)).advance 2)

/-- `EORZ` (R179): exclusive OR, R0 with register r; CC from the result. -/
def execEorz (r : Reg) (s : State) : Host.Outcome State Fault Refusal :=
  let o := s.operandZ r
  .next ((o.result (o.a ^^^ o.b)).advance 1)

/-- `IORA` (R180): inclusive OR, register r, or R0 when indexed, with the byte at the absolute address; CC from the result. -/
def execIora (r : Reg) (a : AbsOperand) (s : State) : Host.Outcome State Fault Refusal :=
  let o := s.operandA r a
  .next ((o.result (o.a ||| o.b)).advance 3)

/-- `IORI` (R181): inclusive OR, register r with the immediate; CC from the result. -/
def execIori (r : Reg) (imm : Byte) (s : State) : Host.Outcome State Fault Refusal :=
  let o := s.operandI r imm
  .next ((o.result (o.a ||| o.b)).advance 2)

/-- `IORR` (R182): inclusive OR, register r with the byte at the relative address; CC from the result. -/
def execIorr (r : Reg) (l : RelOperand) (s : State) : Host.Outcome State Fault Refusal :=
  let o := s.operandR r l
  .next ((o.result (o.a ||| o.b)).advance 2)

/-- `IORZ` (R183): inclusive OR, R0 with register r; CC from the result. -/
def execIorz (r : Reg) (s : State) : Host.Outcome State Fault Refusal :=
  let o := s.operandZ r
  .next ((o.result (o.a ||| o.b)).advance 1)

/-- `TMI` (R184): CC says whether every bit of register r under the mask is 1; the register is kept. -/
def execTmi (r : Reg) (imm : Byte) (s : State) : Host.Outcome State Fault Refusal :=
  .next ((s.setPsl (testMask s.psl (s.reg r) imm)).advance 2)

end Sys2Proof.Machine
end

