-- ==== Sys2Proof/Machine/MiscControl.lean ====
section
/-! DEFINITION. HALT and NOP (spec/45_misc_control.md). -/

namespace Sys2Proof.Machine

/-- `HALT` (R290): pc goes to the next instruction and the processor waits. The outcome `wait` of R7 is a next state with `waiting`
set (log 11). -/
def execHalt (s : State) : Host.Outcome State Fault Refusal :=
  .next (({ s with waiting := true } : State).advance 1)

/-- `NOP` (R291): pc goes to the next instruction. -/
def execNop (s : State) : Host.Outcome State Fault Refusal :=
  .next (s.advance 1)

end Sys2Proof.Machine
end

