-- ==== Sys2Proof/Machine/ProgramStatus.lean ====
section
/-! DEFINITION. The program status instructions (spec/44_program_status.md); section 3 of 93_implementation_defined.md for
`FLAG_PROFILE = manual`. -/

namespace Sys2Proof.Machine

/-- `CPSL` (R263): clear the bits of PSL under the mask. -/
def execCpsl (imm : Byte) (s : State) : Host.Outcome State Fault Refusal :=
  .next ((s.setPsl (s.psl &&& ~~~imm)).advance 2)

/-- `CPSU` (R264): clear the writable bits of PSU under the mask. -/
def execCpsu (imm : Byte) (s : State) : Host.Outcome State Fault Refusal :=
  .next ((s.writePsu (s.psu &&& ~~~imm)).advance 2)

/-- `LPSL` (R265): PSL takes R0, all eight bits. -/
def execLpsl (s : State) : Host.Outcome State Fault Refusal :=
  .next ((s.setPsl s.r0).advance 1)

/-- `LPSU` (R266): the writable bits of PSU take those of R0. -/
def execLpsu (s : State) : Host.Outcome State Fault Refusal :=
  .next ((s.writePsu s.r0).advance 1)

/-- `PPSL` (R267): set the bits of PSL under the mask. -/
def execPpsl (imm : Byte) (s : State) : Host.Outcome State Fault Refusal :=
  .next ((s.setPsl (s.psl ||| imm)).advance 2)

/-- `PPSU` (R268): set the writable bits of PSU under the mask. -/
def execPpsu (imm : Byte) (s : State) : Host.Outcome State Fault Refusal :=
  .next ((s.writePsu (s.psu ||| imm)).advance 2)

/-- `SPSL` (R269): R0 takes PSL as it was; CC is written under `manual` only. -/
def execSpsl (s : State) : Host.Outcome State Fault Refusal :=
  .next (((s.setReg .r0 s.psl).setCCManual s.psl).advance 1)

/-- `SPSU` (R270): R0 takes PSU as it reads, SENSE in bit 7; CC is written under `manual` only. -/
def execSpsu (s : State) : Host.Outcome State Fault Refusal :=
  .next (((s.setReg .r0 s.readPsu).setCCManual s.readPsu).advance 1)

/-- `TPSL` (R271): CC says whether every bit of PSL under the mask is 1, PSL read before CC is written. -/
def execTpsl (imm : Byte) (s : State) : Host.Outcome State Fault Refusal :=
  .next ((s.setPsl (testMask s.psl s.psl imm)).advance 2)

/-- `TPSU` (R272): CC says whether every bit of PSU, as it reads, under the mask is 1. -/
def execTpsu (imm : Byte) (s : State) : Host.Outcome State Fault Refusal :=
  .next ((s.setPsl (testMask s.psl s.readPsu imm)).advance 2)

end Sys2Proof.Machine
end

