-- ==== Sys2Proof/Machine/Rotate.lean ====
section
/-! DEFINITION. The rotates (spec/48_rotate.md). -/

namespace Sys2Proof.Machine

/-- `RRL` (R342): rotate register r one place left, through C when WC = 1. -/
def execRrl (r : Reg) (s : State) : Host.Outcome State Fault Refusal :=
  let x := rotateLeft s.params.flagProfile s.psl (s.reg r)
  .next (((s.setReg r x.value).setPsl x.psl).advance 1)

/-- `RRR` (R343): rotate register r one place right, through C when WC = 1. -/
def execRrr (r : Reg) (s : State) : Host.Outcome State Fault Refusal :=
  let x := rotateRight s.params.flagProfile s.psl (s.reg r)
  .next (((s.setReg r x.value).setPsl x.psl).advance 1)

end Sys2Proof.Machine
end

