-- ==== Sys2Proof/Machine/Subroutine.lean ====
section
/-! DEFINITION. Subroutine calls and returns (spec/43_subroutine.md). -/

namespace Sys2Proof.Machine

/-- `BSFA` (R233): call when CC differs from d. -/
def execBsfa (d : Cond) (b : BranchOperand) (s : State) : Host.Outcome State Fault Refusal :=
  .next (s.callIf (s.condFalse d) 3 fun s => s.branchAbsEA b)

/-- `BSFR` (R234): call when CC differs from d. -/
def execBsfr (d : Cond) (l : RelOperand) (s : State) : Host.Outcome State Fault Refusal :=
  .next (s.callIf (s.condFalse d) 2 fun s => s.relEA l)

/-- `BSNA` (R235): call if register r is not zero. -/
def execBsna (r : Reg) (b : BranchOperand) (s : State) : Host.Outcome State Fault Refusal :=
  .next (s.callIf (s.reg r != 0) 3 fun s => s.branchAbsEA b)

/-- `BSNR` (R236): call if register r is not zero. -/
def execBsnr (r : Reg) (l : RelOperand) (s : State) : Host.Outcome State Fault Refusal :=
  .next (s.callIf (s.reg r != 0) 2 fun s => s.relEA l)

/-- `BSTA` (R237): call when the condition d holds. -/
def execBsta (d : Cond) (b : BranchOperand) (s : State) : Host.Outcome State Fault Refusal :=
  .next (s.callIf (s.condTrue d) 3 fun s => s.branchAbsEA b)

/-- `BSTR` (R238): call when the condition d holds. -/
def execBstr (d : Cond) (l : RelOperand) (s : State) : Host.Outcome State Fault Refusal :=
  .next (s.callIf (s.condTrue d) 2 fun s => s.relEA l)

/-- `BSXA` (R239): call the address plus register 3. -/
def execBsxa (b : BranchOperand) (s : State) : Host.Outcome State Fault Refusal :=
  .next (s.call 3 fun s => s.indexedBranchEA b)

/-- `ZBSR` (R240): call relative to address 0 of page 0. -/
def execZbsr (l : RelOperand) (s : State) : Host.Outcome State Fault Refusal :=
  .next (s.call 2 fun s => s.zeroRelEA l)

/-- `RETC` (R241): return when the condition d holds. -/
def execRetc (d : Cond) (s : State) : Host.Outcome State Fault Refusal :=
  .next (if s.condTrue d then s.popPc else s.advance 1)

/-- `RETE` (R242): return and clear II when the condition d holds; else nothing but pc changes (D38). -/
def execRete (d : Cond) (s : State) : Host.Outcome State Fault Refusal :=
  .next (if s.condTrue d then s.returnFromInterrupt else s.advance 1)

end Sys2Proof.Machine
end

