-- ==== Sys2Proof/Machine/Dispatch.lean ====
section
/-! DEFINITION. The meaning of every instruction: one arm per constructor of `Instr`, in the order of the opcode table. -/

namespace Sys2Proof.Machine

def exec (i : Instr) (s : State) : Host.Outcome State Fault Refusal :=
  match i with
  | .lodz r => Sys2Proof.Machine.execLodz r s
  | .lodi r imm => Sys2Proof.Machine.execLodi r imm s
  | .lodr r l => Sys2Proof.Machine.execLodr r l s
  | .loda r a => Sys2Proof.Machine.execLoda r a s
  | .spsu => Sys2Proof.Machine.execSpsu s
  | .spsl => Sys2Proof.Machine.execSpsl s
  | .retc d => Sys2Proof.Machine.execRetc d s
  | .bctr d l => Sys2Proof.Machine.execBctr d l s
  | .bcta d b => Sys2Proof.Machine.execBcta d b s
  | .eorz r => Sys2Proof.Machine.execEorz r s
  | .eori r imm => Sys2Proof.Machine.execEori r imm s
  | .eorr r l => Sys2Proof.Machine.execEorr r l s
  | .eora r a => Sys2Proof.Machine.execEora r a s
  | .redc r => Sys2Proof.Machine.execRedc r s
  | .rete d => Sys2Proof.Machine.execRete d s
  | .bstr d l => Sys2Proof.Machine.execBstr d l s
  | .bsta d b => Sys2Proof.Machine.execBsta d b s
  | .halt => Sys2Proof.Machine.execHalt s
  | .andz r => Sys2Proof.Machine.execAndz r s
  | .andi r imm => Sys2Proof.Machine.execAndi r imm s
  | .andr r l => Sys2Proof.Machine.execAndr r l s
  | .anda r a => Sys2Proof.Machine.execAnda r a s
  | .rrr r => Sys2Proof.Machine.execRrr r s
  | .rede r port => Sys2Proof.Machine.execRede r port s
  | .brnr r l => Sys2Proof.Machine.execBrnr r l s
  | .brna r b => Sys2Proof.Machine.execBrna r b s
  | .iorz r => Sys2Proof.Machine.execIorz r s
  | .iori r imm => Sys2Proof.Machine.execIori r imm s
  | .iorr r l => Sys2Proof.Machine.execIorr r l s
  | .iora r a => Sys2Proof.Machine.execIora r a s
  | .redd r => Sys2Proof.Machine.execRedd r s
  | .cpsu imm => Sys2Proof.Machine.execCpsu imm s
  | .cpsl imm => Sys2Proof.Machine.execCpsl imm s
  | .ppsu imm => Sys2Proof.Machine.execPpsu imm s
  | .ppsl imm => Sys2Proof.Machine.execPpsl imm s
  | .bsnr r l => Sys2Proof.Machine.execBsnr r l s
  | .bsna r b => Sys2Proof.Machine.execBsna r b s
  | .addz r => Sys2Proof.Machine.execAddz r s
  | .addi r imm => Sys2Proof.Machine.execAddi r imm s
  | .addr r l => Sys2Proof.Machine.execAddr r l s
  | .adda r a => Sys2Proof.Machine.execAdda r a s
  | .lpsu => Sys2Proof.Machine.execLpsu s
  | .lpsl => Sys2Proof.Machine.execLpsl s
  | .dar r => Sys2Proof.Machine.execDar r s
  | .bcfr d l => Sys2Proof.Machine.execBcfr d l s
  | .zbrr l => Sys2Proof.Machine.execZbrr l s
  | .bcfa d b => Sys2Proof.Machine.execBcfa d b s
  | .bxa b => Sys2Proof.Machine.execBxa b s
  | .subz r => Sys2Proof.Machine.execSubz r s
  | .subi r imm => Sys2Proof.Machine.execSubi r imm s
  | .subr r l => Sys2Proof.Machine.execSubr r l s
  | .suba r a => Sys2Proof.Machine.execSuba r a s
  | .wrtc r => Sys2Proof.Machine.execWrtc r s
  | .tpsu imm => Sys2Proof.Machine.execTpsu imm s
  | .tpsl imm => Sys2Proof.Machine.execTpsl imm s
  | .bsfr d l => Sys2Proof.Machine.execBsfr d l s
  | .zbsr l => Sys2Proof.Machine.execZbsr l s
  | .bsfa d b => Sys2Proof.Machine.execBsfa d b s
  | .bsxa b => Sys2Proof.Machine.execBsxa b s
  | .nop => Sys2Proof.Machine.execNop s
  | .strz r => Sys2Proof.Machine.execStrz r s
  | .strr r l => Sys2Proof.Machine.execStrr r l s
  | .stra r a => Sys2Proof.Machine.execStra r a s
  | .rrl r => Sys2Proof.Machine.execRrl r s
  | .wrte r port => Sys2Proof.Machine.execWrte r port s
  | .birr r l => Sys2Proof.Machine.execBirr r l s
  | .bira r b => Sys2Proof.Machine.execBira r b s
  | .comz r => Sys2Proof.Machine.execComz r s
  | .comi r imm => Sys2Proof.Machine.execComi r imm s
  | .comr r l => Sys2Proof.Machine.execComr r l s
  | .coma r a => Sys2Proof.Machine.execComa r a s
  | .wrtd r => Sys2Proof.Machine.execWrtd r s
  | .tmi r imm => Sys2Proof.Machine.execTmi r imm s
  | .bdrr r l => Sys2Proof.Machine.execBdrr r l s
  | .bdra r b => Sys2Proof.Machine.execBdra r b s

end Sys2Proof.Machine
end

