-- ==== Sys2Proof/WellFormed.lean ====
section
/-! DEFINITION. The instruction terms that some bytes encode. Six opcode bytes of a row's span belong to another
instruction (R126, R127), so the six kinds of term below have no encoding; every other term has one (R130). -/

namespace Sys2Proof

/-- `ANDZ,0`, `STRZ,0`, `BCFR,3`, `BCFA,3`, `BSFR,3` and `BSFA,3` do not exist: their opcode bytes are HALT, NOP, ZBRR,
BXA, ZBSR and BSXA (R126, R127). -/
def Instr.wellFormed (i : Instr) : Bool :=
  match i with
  | .andz r => r != .r0
  | .strz r => r != .r0
  | .bcfr d _ => d != 3
  | .bcfa d _ => d != 3
  | .bsfr d _ => d != 3
  | .bsfa d _ => d != 3
  | .lodz _ | .lodi _ _ | .lodr _ _ | .loda _ _ | .spsu | .spsl | .retc _ | .bctr _ _ | .bcta _ _ | .eorz _
    | .eori _ _ | .eorr _ _ | .eora _ _ | .redc _ | .rete _ | .bstr _ _ | .bsta _ _ | .halt | .andi _ _
    | .andr _ _ | .anda _ _ | .rrr _ | .rede _ _ | .brnr _ _ | .brna _ _ | .iorz _ | .iori _ _ | .iorr _ _
    | .iora _ _ | .redd _ | .cpsu _ | .cpsl _ | .ppsu _ | .ppsl _ | .bsnr _ _ | .bsna _ _ | .addz _ | .addi _ _
    | .addr _ _ | .adda _ _ | .lpsu | .lpsl | .dar _ | .zbrr _ | .bxa _ | .subz _ | .subi _ _ | .subr _ _
    | .suba _ _ | .wrtc _ | .tpsu _ | .tpsl _ | .zbsr _ | .bsxa _ | .nop | .strr _ _ | .stra _ _ | .rrl _
    | .wrte _ _ | .birr _ _ | .bira _ _ | .comz _ | .comi _ _ | .comr _ _ | .coma _ _ | .wrtd _ | .tmi _ _
    | .bdrr _ _ | .bdra _ _ => true

end Sys2Proof
end

