-- ==== Sys2Proof/Decode.lean ====
section
/-! DEFINITION. Decoding (R90 to R131), then the encoder. The opcode byte alone fixes the instruction and its length (R96):
`shapeOf` reads it into the instruction still waiting for its operand bytes, and `decode` supplies them. -/

namespace Sys2Proof

/-- Why a list of bytes is no instruction. -/
inductive DecodeError where
  /-- The opcode byte is one of the ten that no row of the table has (R128). -/
  | reservedOpcode (op : Byte)
  /-- The list ends before the instruction does. -/
  | truncated
deriving DecidableEq, Repr

/-- An instruction whose opcode byte is read and whose operand bytes, none, one or two, are not (R96). -/
inductive Shape where
  | one (i : Instr)
  | two (f : Byte → Instr)
  | three (f : Byte → Byte → Instr)

/-- The register field, `opcode[1:0]` (R92). -/
def regOfBits (b : BitVec 2) : Reg :=
  match b with
  | 0 => .r0
  | 1 => .r1
  | 2 => .r2
  | 3 => .r3

/-- The bits that name a register (R92). -/
def Reg.bits (r : Reg) : BitVec 2 :=
  match r with
  | .r0 => 0
  | .r1 => 1
  | .r2 => 2
  | .r3 => 3

/-- The index control IC: 00 none, 01 auto-increment, 10 auto-decrement, 11 indexed (R106). -/
def indexOfBits (b : BitVec 2) : IndexControl :=
  match b with
  | 0 => .plain
  | 1 => .autoIncrement
  | 2 => .autoDecrement
  | 3 => .indexed

/-- The bits of an index control (R106). -/
def IndexControl.bits (x : IndexControl) : BitVec 2 :=
  match x with
  | .plain => 0
  | .autoIncrement => 1
  | .autoDecrement => 2
  | .indexed => 3

/-- Operand `l`: byte 2 is the indirect flag and seven displacement bits (R102). -/
def relOperand (b2 : Byte) : RelOperand :=
  { indirect := b2.getLsbD 7, disp := b2.extractLsb' 0 7 }

/-- Operand `a`: byte 2 is the indirect flag, the index control and address bits 12 to 8, byte 3 bits 7 to 0 (R106). -/
def absOperand (b2 b3 : Byte) : AbsOperand :=
  { indirect := b2.getLsbD 7, index := indexOfBits (b2.extractLsb' 5 2), addr := b2.extractLsb' 0 5 ++ b3 }

/-- Operand `b`: byte 2 is the indirect flag and address bits 14 to 8, byte 3 bits 7 to 0 (R110). -/
def branchOperand (b2 b3 : Byte) : BranchOperand :=
  { indirect := b2.getLsbD 7, addr := b2.extractLsb' 0 7 ++ b3 }

/-- The opcode map (R115, spec/opcode_table.json): bits 7 to 2 select the row, bits 1 to 0 are `r` or `d` or part of the
opcode. Single-byte rows win where two rows claim a byte (R126, R127); the ten unlisted bytes have no shape (R128). -/
def shapeOf (op : Byte) : Option Shape :=
  let d : Cond := op.extractLsb' 0 2
  let r : Reg := regOfBits d
  match (op &&& 0xFC).toNat with
  | 0x00 => some (.one (.lodz r))
  | 0x04 => some (.two fun b2 => .lodi r b2)
  | 0x08 => some (.two fun b2 => .lodr r (relOperand b2))
  | 0x0C => some (.three fun b2 b3 => .loda r (absOperand b2 b3))
  | 0x10 =>
    match d with
    | 2 => some (.one .spsu)
    | 3 => some (.one .spsl)
    | _ => none
  | 0x14 => some (.one (.retc d))
  | 0x18 => some (.two fun b2 => .bctr d (relOperand b2))
  | 0x1C => some (.three fun b2 b3 => .bcta d (branchOperand b2 b3))
  | 0x20 => some (.one (.eorz r))
  | 0x24 => some (.two fun b2 => .eori r b2)
  | 0x28 => some (.two fun b2 => .eorr r (relOperand b2))
  | 0x2C => some (.three fun b2 b3 => .eora r (absOperand b2 b3))
  | 0x30 => some (.one (.redc r))
  | 0x34 => some (.one (.rete d))
  | 0x38 => some (.two fun b2 => .bstr d (relOperand b2))
  | 0x3C => some (.three fun b2 b3 => .bsta d (branchOperand b2 b3))
  | 0x40 =>
    match d with
    | 0 => some (.one .halt)
    | _ => some (.one (.andz r))
  | 0x44 => some (.two fun b2 => .andi r b2)
  | 0x48 => some (.two fun b2 => .andr r (relOperand b2))
  | 0x4C => some (.three fun b2 b3 => .anda r (absOperand b2 b3))
  | 0x50 => some (.one (.rrr r))
  | 0x54 => some (.two fun b2 => .rede r b2)
  | 0x58 => some (.two fun b2 => .brnr r (relOperand b2))
  | 0x5C => some (.three fun b2 b3 => .brna r (branchOperand b2 b3))
  | 0x60 => some (.one (.iorz r))
  | 0x64 => some (.two fun b2 => .iori r b2)
  | 0x68 => some (.two fun b2 => .iorr r (relOperand b2))
  | 0x6C => some (.three fun b2 b3 => .iora r (absOperand b2 b3))
  | 0x70 => some (.one (.redd r))
  | 0x74 =>
    match d with
    | 0 => some (.two fun b2 => .cpsu b2)
    | 1 => some (.two fun b2 => .cpsl b2)
    | 2 => some (.two fun b2 => .ppsu b2)
    | 3 => some (.two fun b2 => .ppsl b2)
  | 0x78 => some (.two fun b2 => .bsnr r (relOperand b2))
  | 0x7C => some (.three fun b2 b3 => .bsna r (branchOperand b2 b3))
  | 0x80 => some (.one (.addz r))
  | 0x84 => some (.two fun b2 => .addi r b2)
  | 0x88 => some (.two fun b2 => .addr r (relOperand b2))
  | 0x8C => some (.three fun b2 b3 => .adda r (absOperand b2 b3))
  | 0x90 =>
    match d with
    | 2 => some (.one .lpsu)
    | 3 => some (.one .lpsl)
    | _ => none
  | 0x94 => some (.one (.dar r))
  | 0x98 =>
    match d with
    | 3 => some (.two fun b2 => .zbrr (relOperand b2))
    | _ => some (.two fun b2 => .bcfr d (relOperand b2))
  | 0x9C =>
    match d with
    | 3 => some (.three fun b2 b3 => .bxa (branchOperand b2 b3))
    | _ => some (.three fun b2 b3 => .bcfa d (branchOperand b2 b3))
  | 0xA0 => some (.one (.subz r))
  | 0xA4 => some (.two fun b2 => .subi r b2)
  | 0xA8 => some (.two fun b2 => .subr r (relOperand b2))
  | 0xAC => some (.three fun b2 b3 => .suba r (absOperand b2 b3))
  | 0xB0 => some (.one (.wrtc r))
  | 0xB4 =>
    match d with
    | 0 => some (.two fun b2 => .tpsu b2)
    | 1 => some (.two fun b2 => .tpsl b2)
    | _ => none
  | 0xB8 =>
    match d with
    | 3 => some (.two fun b2 => .zbsr (relOperand b2))
    | _ => some (.two fun b2 => .bsfr d (relOperand b2))
  | 0xBC =>
    match d with
    | 3 => some (.three fun b2 b3 => .bsxa (branchOperand b2 b3))
    | _ => some (.three fun b2 b3 => .bsfa d (branchOperand b2 b3))
  | 0xC0 =>
    match d with
    | 0 => some (.one .nop)
    | _ => some (.one (.strz r))
  | 0xC8 => some (.two fun b2 => .strr r (relOperand b2))
  | 0xCC => some (.three fun b2 b3 => .stra r (absOperand b2 b3))
  | 0xD0 => some (.one (.rrl r))
  | 0xD4 => some (.two fun b2 => .wrte r b2)
  | 0xD8 => some (.two fun b2 => .birr r (relOperand b2))
  | 0xDC => some (.three fun b2 b3 => .bira r (branchOperand b2 b3))
  | 0xE0 => some (.one (.comz r))
  | 0xE4 => some (.two fun b2 => .comi r b2)
  | 0xE8 => some (.two fun b2 => .comr r (relOperand b2))
  | 0xEC => some (.three fun b2 b3 => .coma r (absOperand b2 b3))
  | 0xF0 => some (.one (.wrtd r))
  | 0xF4 => some (.two fun b2 => .tmi r b2)
  | 0xF8 => some (.two fun b2 => .bdrr r (relOperand b2))
  | 0xFC => some (.three fun b2 b3 => .bdra r (branchOperand b2 b3))
  | _ => none

/-- Decode the instruction at the head of a list of bytes; answer it and the bytes after it (R90, R96). -/
def decode (bytes : List Byte) : Except DecodeError (Instr × List Byte) :=
  match bytes with
  | [] => .error .truncated
  | op :: rest =>
    match shapeOf op with
    | none => .error (.reservedOpcode op)
    | some (.one i) => .ok (i, rest)
    | some (.two f) =>
      match rest with
      | b2 :: rest => .ok (f b2, rest)
      | [] => .error .truncated
    | some (.three f) =>
      match rest with
      | b2 :: b3 :: rest => .ok (f b2 b3, rest)
      | _ => .error .truncated

/-- Byte `k` of a number whose bits are counted from the first byte's bit 0. -/
def tableByte (nbits w k : Nat) : Byte :=
  BitVec.ofNat 8 (w % 2 ^ nbits / 2 ^ (8 * k))

/-- The three bytes, the longest instruction, that a table word of `nbits` bits stands for; bits above `nbits` are 0. -/
def tableBytes (nbits w : Nat) : List Byte :=
  [tableByte nbits w 0, tableByte nbits w 1, tableByte nbits w 2]

/-- The instruction the decoder reads from a table word whose bit 0 is the least significant bit of the first byte. -/
def decodeTableWord (nbits w : Nat) : Option Instr :=
  match decode (tableBytes nbits w) with
  | .ok (i, _) => some i
  | .error _ => none

/-! The encoder, from the same encoding tables (R94, R102, R106, R110). -/

/-- An opcode byte whose two low bits carry `x` (R91). -/
def opByte (base : Byte) (x : BitVec 2) : Byte :=
  base ||| x.setWidth 8

/-- Byte 2 of a relative operand (R102). -/
def RelOperand.byte2 (l : RelOperand) : Byte :=
  BitVec.ofBool l.indirect ++ l.disp

/-- Byte 2 of an operand `a` (R106). -/
def AbsOperand.byte2 (a : AbsOperand) : Byte :=
  BitVec.ofBool a.indirect ++ a.index.bits ++ a.addr.extractLsb' 8 5

/-- Byte 3 of an operand `a` (R106). -/
def AbsOperand.byte3 (a : AbsOperand) : Byte :=
  a.addr.extractLsb' 0 8

/-- Byte 2 of an operand `b` (R110). -/
def BranchOperand.byte2 (b : BranchOperand) : Byte :=
  BitVec.ofBool b.indirect ++ b.addr.extractLsb' 8 7

/-- Byte 3 of an operand `b` (R110). -/
def BranchOperand.byte3 (b : BranchOperand) : Byte :=
  b.addr.extractLsb' 0 8

/-- The bytes of an instruction, first byte first. On the ill-formed terms (`Instr.wellFormed`) it answers the bytes of the
instruction that owns the opcode byte. -/
def encode (i : Instr) : List Byte :=
  match i with
  | .lodz r => [opByte 0x00 r.bits]
  | .lodi r imm => [opByte 0x04 r.bits, imm]
  | .lodr r l => [opByte 0x08 r.bits, l.byte2]
  | .loda r a => [opByte 0x0C r.bits, a.byte2, a.byte3]
  | .spsu => [0x12]
  | .spsl => [0x13]
  | .retc d => [opByte 0x14 d]
  | .bctr d l => [opByte 0x18 d, l.byte2]
  | .bcta d b => [opByte 0x1C d, b.byte2, b.byte3]
  | .eorz r => [opByte 0x20 r.bits]
  | .eori r imm => [opByte 0x24 r.bits, imm]
  | .eorr r l => [opByte 0x28 r.bits, l.byte2]
  | .eora r a => [opByte 0x2C r.bits, a.byte2, a.byte3]
  | .redc r => [opByte 0x30 r.bits]
  | .rete d => [opByte 0x34 d]
  | .bstr d l => [opByte 0x38 d, l.byte2]
  | .bsta d b => [opByte 0x3C d, b.byte2, b.byte3]
  | .halt => [0x40]
  | .andz r => [opByte 0x40 r.bits]
  | .andi r imm => [opByte 0x44 r.bits, imm]
  | .andr r l => [opByte 0x48 r.bits, l.byte2]
  | .anda r a => [opByte 0x4C r.bits, a.byte2, a.byte3]
  | .rrr r => [opByte 0x50 r.bits]
  | .rede r port => [opByte 0x54 r.bits, port]
  | .brnr r l => [opByte 0x58 r.bits, l.byte2]
  | .brna r b => [opByte 0x5C r.bits, b.byte2, b.byte3]
  | .iorz r => [opByte 0x60 r.bits]
  | .iori r imm => [opByte 0x64 r.bits, imm]
  | .iorr r l => [opByte 0x68 r.bits, l.byte2]
  | .iora r a => [opByte 0x6C r.bits, a.byte2, a.byte3]
  | .redd r => [opByte 0x70 r.bits]
  | .cpsu imm => [0x74, imm]
  | .cpsl imm => [0x75, imm]
  | .ppsu imm => [0x76, imm]
  | .ppsl imm => [0x77, imm]
  | .bsnr r l => [opByte 0x78 r.bits, l.byte2]
  | .bsna r b => [opByte 0x7C r.bits, b.byte2, b.byte3]
  | .addz r => [opByte 0x80 r.bits]
  | .addi r imm => [opByte 0x84 r.bits, imm]
  | .addr r l => [opByte 0x88 r.bits, l.byte2]
  | .adda r a => [opByte 0x8C r.bits, a.byte2, a.byte3]
  | .lpsu => [0x92]
  | .lpsl => [0x93]
  | .dar r => [opByte 0x94 r.bits]
  | .bcfr d l => [opByte 0x98 d, l.byte2]
  | .zbrr l => [0x9B, l.byte2]
  | .bcfa d b => [opByte 0x9C d, b.byte2, b.byte3]
  | .bxa b => [0x9F, b.byte2, b.byte3]
  | .subz r => [opByte 0xA0 r.bits]
  | .subi r imm => [opByte 0xA4 r.bits, imm]
  | .subr r l => [opByte 0xA8 r.bits, l.byte2]
  | .suba r a => [opByte 0xAC r.bits, a.byte2, a.byte3]
  | .wrtc r => [opByte 0xB0 r.bits]
  | .tpsu imm => [0xB4, imm]
  | .tpsl imm => [0xB5, imm]
  | .bsfr d l => [opByte 0xB8 d, l.byte2]
  | .zbsr l => [0xBB, l.byte2]
  | .bsfa d b => [opByte 0xBC d, b.byte2, b.byte3]
  | .bsxa b => [0xBF, b.byte2, b.byte3]
  | .nop => [0xC0]
  | .strz r => [opByte 0xC0 r.bits]
  | .strr r l => [opByte 0xC8 r.bits, l.byte2]
  | .stra r a => [opByte 0xCC r.bits, a.byte2, a.byte3]
  | .rrl r => [opByte 0xD0 r.bits]
  | .wrte r port => [opByte 0xD4 r.bits, port]
  | .birr r l => [opByte 0xD8 r.bits, l.byte2]
  | .bira r b => [opByte 0xDC r.bits, b.byte2, b.byte3]
  | .comz r => [opByte 0xE0 r.bits]
  | .comi r imm => [opByte 0xE4 r.bits, imm]
  | .comr r l => [opByte 0xE8 r.bits, l.byte2]
  | .coma r a => [opByte 0xEC r.bits, a.byte2, a.byte3]
  | .wrtd r => [opByte 0xF0 r.bits]
  | .tmi r imm => [opByte 0xF4 r.bits, imm]
  | .bdrr r l => [opByte 0xF8 r.bits, l.byte2]
  | .bdra r b => [opByte 0xFC r.bits, b.byte2, b.byte3]

end Sys2Proof
end

