-- ==== Sys2Proof/Machine/Fetch.lean ====
section
/-! DEFINITION. Fetching the instruction at `pc` through `MemRead`, byte after byte in its page (R28, R65), and placing an
instruction where it is fetched. -/

namespace Sys2Proof.Machine

/-- What a fetch answers: the instruction with the state its reads left, or the reserved byte (R128). -/
inductive Fetched where
  | instr (i : Instr) (s : State)
  | reserved (op : Byte)
deriving DecidableEq, Repr

/-- The opcode byte is read at `pc`, then as many bytes as it asks for at `inpage(pc, 1)` and `inpage(pc, 2)` (R65, R96). -/
def State.fetch (s : State) : Fetched :=
  let m1 := s.memRead s.pc
  match shapeOf m1.1 with
  | none => .reserved m1.1
  | some (.one i) => .instr i m1.2
  | some (.two f) =>
    let m2 := m1.2.memRead (s.nextAddr 1)
    .instr (f m2.1) m2.2
  | some (.three f) =>
    let m2 := m1.2.memRead (s.nextAddr 1)
    let m3 := m2.2.memRead (s.nextAddr 2)
    .instr (f m2.1 m3.1) m3.2

/-- Store a byte where a fetch will read it: in memory, the address made RAM if it was a device or empty. -/
def State.placeByte (s : State) (a : Addr) (v : Byte) : State :=
  { s with
    mem := s.mem.write a.toNat v
    params := if plainKind (s.kindAt a) then s.params
      else { s.params with memMap := { base := a.toNat, size := 1, kind := .ram } :: s.params.memMap } }

/-- Store the three bytes of a table word at `pc` and let the next step run them: no reset, no accepted interrupt, no wait
state (log 16). -/
def State.placeWord (s : State) (nbits w : Nat) : State :=
  let s := s.placeByte s.pc (tableByte nbits w 0)
  let s := s.placeByte (s.nextAddr 1) (tableByte nbits w 1)
  let s := s.placeByte (s.nextAddr 2) (tableByte nbits w 2)
  { s with
    waiting := false
    pins := { s.pins with reset := false, intreq := s.pins.intreq && psuII s.psu } }

end Sys2Proof.Machine
end

