-- ==== Sys2Proof/Machine/Step.lean ====
section
/-! DEFINITION. One step of the machine (R355): reset, else an accepted interrupt, else the wait state, else the instruction
at `pc`; then the environment sets its pins for the next boundary. -/

namespace Sys2Proof.Machine

/-- One step (R355, R363). In the wait state nothing changes but the pins (R290, R375; log 11). -/
def step (s : State) : Host.Outcome State Fault Refusal :=
  if s.pins.reset then .next s.resetStep.tick
  else if s.interruptAccepted then .next s.interruptEntry.tick
  else if s.waiting then .next s.tick
  else
    match s.fetch with
    | .reserved op => .fault (.reservedOpcode op)
    | .instr i t => tickOutcome (exec i t)

/-- The state with a table word's instruction where the next step fetches it. -/
def State.withFetchWord (s : State) (nbits w : Nat) : State :=
  s.placeWord nbits w

end Sys2Proof.Machine
end

