-- ==== Sys2Proof/Machine/Card.lean ====
section
/-! DEFINITION. The columns of the card beside the opcode: the length its operand letters give (R96), the flag column (R14,
R47) and the machine cycles (R398). No step depends on them; statements do. -/

namespace Sys2Proof.Machine

/-- The length of an instruction in bytes (R96). -/
def instrLength (i : Instr) : Nat :=
  match i with
  | .lodz _ | .spsu | .spsl | .retc _ | .eorz _ | .redc _ | .rete _ | .halt | .andz _ | .rrr _ | .iorz _
    | .redd _ | .addz _ | .lpsu | .lpsl | .dar _ | .subz _ | .wrtc _ | .nop | .strz _ | .rrl _ | .comz _
    | .wrtd _ => 1
  | .lodi _ _ | .lodr _ _ | .bctr _ _ | .eori _ _ | .eorr _ _ | .bstr _ _ | .andi _ _ | .andr _ _ | .rede _ _
    | .brnr _ _ | .iori _ _ | .iorr _ _ | .cpsu _ | .cpsl _ | .ppsu _ | .ppsl _ | .bsnr _ _ | .addi _ _
    | .addr _ _ | .bcfr _ _ | .zbrr _ | .subi _ _ | .subr _ _ | .tpsu _ | .tpsl _ | .bsfr _ _ | .zbsr _
    | .strr _ _ | .wrte _ _ | .birr _ _ | .comi _ _ | .comr _ _ | .tmi _ _ | .bdrr _ _ => 2
  | .loda _ _ | .bcta _ _ | .eora _ _ | .bsta _ _ | .anda _ _ | .brna _ _ | .iora _ _ | .bsna _ _ | .adda _ _
    | .bcfa _ _ | .bxa _ | .suba _ _ | .bsfa _ _ | .bsxa _ | .stra _ _ | .bira _ _ | .coma _ _ | .bdra _ _ => 3

/-- The three patterns of the flag column that occur (R14): no flag, CC alone, CC with IDC, OVF and C. -/
inductive FlagColumn where
  | none
  | cc
  | all
deriving DecidableEq, Repr

/-- The flag column of the card (R14, R47). -/
def flagColumn (i : Instr) : FlagColumn :=
  match i with
  | .addz _ | .addi _ _ | .addr _ _ | .adda _ _ | .subz _ | .subi _ _ | .subr _ _ | .suba _ _ => .all
  | .lodz _ | .lodi _ _ | .lodr _ _ | .loda _ _ | .eorz _ | .eori _ _ | .eorr _ _ | .eora _ _ | .redc _
    | .andz _ | .andi _ _ | .andr _ _ | .anda _ _ | .rede _ _ | .iorz _ | .iori _ _ | .iorr _ _ | .iora _ _
    | .redd _ | .tpsu _ | .tpsl _ | .comz _ | .comi _ _ | .comr _ _ | .coma _ _ | .tmi _ _ => .cc
  | .spsu | .spsl | .retc _ | .bctr _ _ | .bcta _ _ | .rete _ | .bstr _ _ | .bsta _ _ | .halt | .rrr _
    | .brnr _ _ | .brna _ _ | .cpsu _ | .cpsl _ | .ppsu _ | .ppsl _ | .bsnr _ _ | .bsna _ _ | .lpsu | .lpsl
    | .dar _ | .bcfr _ _ | .zbrr _ | .bcfa _ _ | .bxa _ | .wrtc _ | .bsfr _ _ | .zbsr _ | .bsfa _ _ | .bsxa _
    | .nop | .strz _ | .strr _ _ | .stra _ _ | .rrl _ | .wrte _ _ | .birr _ _ | .bira _ _ | .wrtd _ | .bdrr _ _
    | .bdra _ _ => .none

/-- The bits of PSL a flag pattern marks: CC is bits 7 and 6, IDC bit 5, OVF bit 2, C bit 0 (R14, R38). -/
def FlagColumn.mask (f : FlagColumn) : Byte :=
  match f with
  | .none => 0x00
  | .cc => 0xC0
  | .all => 0xE5

/-- The machine cycles of the card (R398). Timing information only (R399; log 18). -/
def instrCycles (i : Instr) : Nat :=
  match i with
  | .lodz _ | .lodi _ _ | .spsu | .spsl | .eorz _ | .eori _ _ | .redc _ | .halt | .andz _ | .andi _ _ | .rrr _
    | .iorz _ | .iori _ _ | .redd _ | .addz _ | .addi _ _ | .lpsu | .lpsl | .subz _ | .subi _ _ | .wrtc _ | .nop
    | .strz _ | .rrl _ | .comz _ | .comi _ _ | .wrtd _ => 2
  | .lodr _ _ | .retc _ | .bctr _ _ | .bcta _ _ | .eorr _ _ | .rete _ | .bstr _ _ | .bsta _ _ | .andr _ _
    | .rede _ _ | .brnr _ _ | .brna _ _ | .iorr _ _ | .cpsu _ | .cpsl _ | .ppsu _ | .ppsl _ | .bsnr _ _
    | .bsna _ _ | .addr _ _ | .dar _ | .bcfr _ _ | .zbrr _ | .bcfa _ _ | .bxa _ | .subr _ _ | .tpsu _ | .tpsl _
    | .bsfr _ _ | .zbsr _ | .bsfa _ _ | .bsxa _ | .strr _ _ | .wrte _ _ | .birr _ _ | .bira _ _ | .comr _ _
    | .tmi _ _ | .bdrr _ _ | .bdra _ _ => 3
  | .loda _ _ | .eora _ _ | .anda _ _ | .iora _ _ | .adda _ _ | .suba _ _ | .stra _ _ | .coma _ _ => 4

end Sys2Proof.Machine
end

