-- ==== Sys2Proof/Safety.lean ====
section
/-! DEFINITION. What a good state and a safe step are, and the words the statements use: what an instruction leaves unchanged,
where an address operand points, the four forms of the two-operand instructions, as numbers and bits rather than as the
machine computes them. -/

namespace Sys2Proof.Machine

/-! States and steps. -/

/-- The invariant of every step: memory is in canonical form, and the bits of PSU that are not stored are 0 (R31, R34;
log 15). -/
abbrev State.Inv (s : State) : Prop :=
  Memory.wf s.mem ∧ s.psu &&& ~~~psuWriteMask s.params.psu43 = 0

/-- A safe state: the next step does not stop. -/
def State.Safe (s : State) : Prop :=
  ∃ t, step s = .next t

/-- No reset, no accepted interrupt, no wait state: the step executes an instruction (R355). -/
def State.Executes (s : State) : Prop :=
  s.pins.reset = false ∧ s.interruptAccepted = false ∧ s.waiting = false

/-- The address is RAM or ROM: a read there has no side effect (R62, R67). -/
def State.plainAt (s : State) (a : Addr) : Bool :=
  plainKind (s.kindAt a)

/-- The three bytes a fetch can read at `pc`, as memory holds them (R28, R65). -/
def State.codeBytes (s : State) : List Byte :=
  [s.peek s.pc, s.peek (s.nextAddr 1), s.peek (s.nextAddr 2)]

/-- The ten opcode bytes that no instruction has (R128). -/
def reservedBytes : List Byte :=
  [0x10, 0x11, 0x90, 0x91, 0xB6, 0xB7, 0xC4, 0xC5, 0xC6, 0xC7]

/-! Frames. -/

/-- Every register of either bank reads as before, but for the registers `ns` of the bank that `s` selects (R22, R23). -/
def RegsKept (s t : State) (ns : List Reg) : Prop :=
  ∀ (b : Bool) (n : Reg), (n ∈ ns → n ≠ .r0 ∧ b ≠ pslRS s.psl) → t.regAt b n = s.regAt b n

/-- Every byte of memory reads as before. -/
def MemKept (s t : State) : Prop :=
  ∀ a : Addr, t.peek a = s.peek a

/-- Registers but `ns`, the bits of PSL and PSU outside two masks, `waiting`, the parameters, the pins and their schedule
are as before. -/
def Frame (s t : State) (ns : List Reg) (pslMask psuMask : Byte) : Prop :=
  RegsKept s t ns ∧ t.psl &&& ~~~pslMask = s.psl &&& ~~~pslMask ∧ t.psu &&& ~~~psuMask = s.psu &&& ~~~psuMask ∧
    t.waiting = s.waiting ∧ t.params = s.params ∧ t.pins = s.pins ∧ t.schedule = s.schedule

/-- The frame of an instruction that stores nothing and pushes nothing. -/
def QuietFrame (s t : State) (ns : List Reg) (pslMask psuMask : Byte) : Prop :=
  Frame s t ns pslMask psuMask ∧ MemKept s t ∧ t.ras = s.ras

/-- The same traffic with the environment: the same bytes left to deliver, free values used, and bus events. -/
def SameTraffic (s t : State) : Prop :=
  t.inputs = s.inputs ∧ t.freeCount = s.freeCount ∧ t.events = s.events

/-! Addresses as numbers. -/

/-- The address `k` places on from `a`, wrapping in its page of 8,192 (R28). -/
def stepInPage (a : Nat) (k : Int) : Nat :=
  a / 8192 * 8192 + (((a % 8192 : Nat) + k) % 8192).toNat

/-- An address operand whose direct address is `p` yields `e`: `p` itself, or with the indirect flag the low 15 bits of the
two bytes read at `p` and at the next address in its page, high byte first (R101). -/
def TargetIs (s : State) (indirect : Bool) (p : Nat) (e : Addr × State) : Prop :=
  let hi := s.memRead (BitVec.ofNat 15 p)
  let lo := hi.2.memRead (BitVec.ofNat 15 (stepInPage p 1))
  (indirect = false → e.1.toNat = p ∧ e.2 = s) ∧
    (indirect = true → e.1.toNat = hi.1.toNat % 128 * 256 + lo.1.toNat ∧ e.2 = lo.2)

/-! Flags as numbers and bits. -/

/-- What CC says of an 8-bit result read as a signed number: 01 positive, 00 zero, 10 negative (R40). -/
def CcSays (cc : Cond) (v : Byte) : Prop :=
  (cc = 0b01 ↔ 0 < v.toInt) ∧ (cc = 0b00 ↔ v.toInt = 0) ∧ (cc = 0b10 ↔ v.toInt < 0)

/-- The carry an addition takes in: C with WC = 1, else nothing (R43). -/
def carryIn (s : State) : Nat :=
  if pslWC s.psl ∧ pslC s.psl then 1 else 0

/-- The borrow a subtraction takes in: 1 - C with WC = 1, else nothing (R43, R143). -/
def borrowIn (s : State) : Nat :=
  if pslWC s.psl ∧ ¬pslC s.psl then 1 else 0

/-- Every bit of `v` under the mask is 1 (R171). -/
def AllSelected (v mask : Byte) : Prop :=
  ∀ k < 8, mask.getLsbD k = true → v.getLsbD k = true

/-- The bits of PSU that LPSU, CPSU and PPSU can write: F, II and SP, and bits 4 and 3 when they are storage (R34, R36). -/
def PsuWritable (p : Config.Psu43) (k : Nat) : Prop :=
  k ≤ 2 ∨ k = 5 ∨ k = 6 ∨ ((k = 3 ∨ k = 4) ∧ p = .storage)

/-- Two packed decimal digits. -/
def packed (n : Nat) : Nat :=
  n / 10 * 16 + n % 10

/-! The forms of the two-operand instructions (R140). -/

/-- An addressing form with its operands. -/
inductive Form where
  | regZero (r : Reg)
  | imm (r : Reg) (i : Byte)
  | rel (r : Reg) (l : RelOperand)
  | abs (r : Reg) (a : AbsOperand)
deriving DecidableEq, Repr

/-- The operands the form yields (R140). -/
def Form.operand (f : Form) (s : State) : Operand :=
  match f with
  | .regZero r => s.operandZ r
  | .imm r i => s.operandI r i
  | .rel r l => s.operandR r l
  | .abs r a => s.operandA r a

/-- The length of the form in bytes (R96). -/
def Form.length (f : Form) : Nat :=
  match f with
  | .regZero _ => 1
  | .imm _ _ => 2
  | .rel _ _ => 2
  | .abs _ _ => 3

/-- The index register, where the form itself changes it (R109). -/
def steppedIndex (r : Reg) (a : AbsOperand) : List Reg :=
  match a.index with
  | .plain => []
  | .autoIncrement => [r]
  | .autoDecrement => [r]
  | .indexed => []

/-- The registers that evaluating the form changes (R109). -/
def Form.stepped (f : Form) : List Reg :=
  match f with
  | .regZero _ => []
  | .imm _ _ => []
  | .rel _ _ => []
  | .abs r a => steppedIndex r a

/-- ADDZ, ADDI, ADDR, ADDA. -/
def Form.add (f : Form) : Instr :=
  match f with
  | .regZero r => .addz r
  | .imm r i => .addi r i
  | .rel r l => .addr r l
  | .abs r a => .adda r a

/-- SUBZ, SUBI, SUBR, SUBA. -/
def Form.sub (f : Form) : Instr :=
  match f with
  | .regZero r => .subz r
  | .imm r i => .subi r i
  | .rel r l => .subr r l
  | .abs r a => .suba r a

/-- COMZ, COMI, COMR, COMA. -/
def Form.com (f : Form) : Instr :=
  match f with
  | .regZero r => .comz r
  | .imm r i => .comi r i
  | .rel r l => .comr r l
  | .abs r a => .coma r a

/-- ANDZ, ANDI, ANDR, ANDA. -/
def Form.and (f : Form) : Instr :=
  match f with
  | .regZero r => .andz r
  | .imm r i => .andi r i
  | .rel r l => .andr r l
  | .abs r a => .anda r a

/-- EORZ, EORI, EORR, EORA. -/
def Form.eor (f : Form) : Instr :=
  match f with
  | .regZero r => .eorz r
  | .imm r i => .eori r i
  | .rel r l => .eorr r l
  | .abs r a => .eora r a

/-- IORZ, IORI, IORR, IORA. -/
def Form.ior (f : Form) : Instr :=
  match f with
  | .regZero r => .iorz r
  | .imm r i => .iori r i
  | .rel r l => .iorr r l
  | .abs r a => .iora r a

/-- LODZ, LODI, LODR, LODA. -/
def Form.lod (f : Form) : Instr :=
  match f with
  | .regZero r => .lodz r
  | .imm r i => .lodi r i
  | .rel r l => .lodr r l
  | .abs r a => .loda r a

/-- What every instruction of a form leaves: pc at the next instruction, the frame with the register operated on and the
stepped index let go, every register but the one operated on as the form's evaluation left it, and no traffic beyond the
form's own. -/
def FormDone (f : Form) (s t : State) (pslMask : Byte) : Prop :=
  let o := f.operand s
  t.pc = s.nextAddr f.length ∧ QuietFrame s t (o.n :: f.stepped) pslMask 0 ∧
    (∀ m, m ≠ o.n → t.reg m = o.s.reg m) ∧ SameTraffic o.s t

/-! Control transfers. -/

/-- `CondTrue(d)` (R200). -/
def CondHolds (s : State) (d : Cond) : Prop :=
  (d = 3 ∧ s.params.cond3 = .unconditional) ∨ pslCC s.psl = d

/-- Taken, pc is the effective address `e`; not taken, the next instruction, and no pointer is read (R201). -/
def WentTo (s t : State) (taken : Prop) (len : Nat) (e : Addr × State) : Prop :=
  (taken → t.pc = e.1 ∧ SameTraffic e.2 t) ∧ (¬taken → t.pc = s.nextAddr len ∧ SameTraffic s t)

/-- A call: taken, the next instruction's address stands in RAS[SP], the other entries are kept and SP is one on; not taken,
stack and PSU are kept (R230, R51). -/
def Called (s t : State) (taken : Prop) (len : Nat) (e : Addr × State) : Prop :=
  WentTo s t taken len e ∧ Frame s t [] 0 0x07 ∧ MemKept s t ∧
    (taken → psuSP t.psu = psuSP s.psu + 1 ∧ rasEntry t.ras (psuSP s.psu) = s.nextAddr len ∧
      ∀ k, k ≠ psuSP s.psu → rasEntry t.ras k = rasEntry s.ras k) ∧
    (¬taken → t.ras = s.ras ∧ t.psu = s.psu)

/-- A return: taken, SP is one back and pc the entry there; not taken, the next instruction (R231, R52). -/
def Returned (s t : State) (taken : Prop) : Prop :=
  (taken → psuSP t.psu = psuSP s.psu - 1 ∧ t.pc = rasEntry s.ras (psuSP s.psu - 1)) ∧
    (¬taken → t.psu = s.psu ∧ t.pc = s.nextAddr 1)

/-- The eight calls (R232). -/
def isCall (i : Instr) : Bool :=
  match i with
  | .bsta _ _ | .bstr _ _ | .bsfa _ _ | .bsfr _ _ | .bsna _ _ | .bsnr _ _ | .bsxa _ | .zbsr _ => true
  | _ => false

/-- The two returns (R232). -/
def isReturn (i : Instr) : Bool :=
  match i with
  | .retc _ | .rete _ => true
  | _ => false

/-- The twelve branches (R202). -/
def isBranch (i : Instr) : Bool :=
  match i with
  | .bcta _ _ | .bctr _ _ | .bcfa _ _ | .bcfr _ _ | .brna _ _ | .brnr _ _ | .bira _ _ | .birr _ _ | .bdra _ _ | .bdrr _ _
    | .bxa _ | .zbrr _ => true
  | _ => false

/-- STRA and STRR, the only instructions that write memory (R63). -/
def isStore (i : Instr) : Bool :=
  match i with
  | .stra _ _ | .strr _ _ => true
  | _ => false

/-- LPSU, CPSU, PPSU: the writers of PSU (R36). -/
def writesPsu (i : Instr) : Bool :=
  match i with
  | .lpsu | .cpsu _ | .ppsu _ => true
  | _ => false

/-- LPSL, CPSL, PPSL: the writers of PSL as data (R38, R47). -/
def writesPsl (i : Instr) : Bool :=
  match i with
  | .lpsl | .cpsl _ | .ppsl _ => true
  | _ => false

/-- RRL and RRR (R340). -/
def isRotate (i : Instr) : Bool :=
  match i with
  | .rrl _ | .rrr _ => true
  | _ => false

/-! Stores. -/

/-- `MemWrite(a, 1, v)` took `s` to `t` (R63): RAM reads `v` at `a`, anything else there as before; every other byte reads as
before; a device is told, and there is no other traffic. -/
def StoredAt (s t : State) (a : Addr) (v : Byte) : Prop :=
  (s.kindAt a = .ram → Memory.wf s.mem → t.peek a = v) ∧ (s.kindAt a ≠ .ram → t.peek a = s.peek a) ∧
    (∀ b, b ≠ a → t.peek b = s.peek b) ∧ t.inputs = s.inputs ∧ t.freeCount = s.freeCount ∧
    (s.kindAt a = .device → t.events = .deviceWrite a v :: s.events) ∧ (s.kindAt a ≠ .device → t.events = s.events)

/-- Push one return address after another (R51). -/
def pushAll (s : State) (vs : List Addr) : State :=
  vs.foldl State.push s

end Sys2Proof.Machine
end

