-- ==== Sys2Proof/Certificates/Slice0/Obligations.lean ====
section
/-! DEFINITION. The statements for the provers. Where a docstring names a decision D<n>, the rule it cites is the spec's own
choice there (log 17). -/

open Sys2Proof Sys2Proof.Machine

/-! Encoding. -/

/-- Decoding an encoded well-formed instruction gives it back, with every operand at every value its encoding admits. -/
def Obligations.DecodeEncodeRoundTrip : Prop :=
  ∀ (i : Instr) (rest : List Byte), i.wellFormed = true → decode (encode i ++ rest) = .ok (i, rest)

/-- Every sequence of bytes that decodes is the encoding of the well-formed instruction it decodes to. -/
def Obligations.EncodeDecodeRoundTrip : Prop :=
  ∀ (bs : List Byte) (i : Instr) (rest : List Byte), decode bs = .ok (i, rest) →
    i.wellFormed = true ∧ encode i ++ rest = bs

/-- The ten bytes of R128, and no others, are refused as opcodes (D24). -/
def Obligations.ReservedBytesAreExactlyTheTen : Prop :=
  ∀ (op : Byte) (rest : List Byte), decode (op :: rest) = .error (.reservedOpcode op) ↔ op ∈ reservedBytes

/-- The opcode byte alone fixes the length: two instructions with the same opcode byte have the same length, and decoding
takes exactly that many bytes, one to three. -/
def Obligations.OpcodeFixesLength : Prop :=
  ∀ (op : Byte) (bs cs : List Byte) (i j : Instr) (rest rest' : List Byte), decode (op :: bs) = .ok (i, rest) →
    decode (op :: cs) = .ok (j, rest') →
    instrLength i = instrLength j ∧ bs.length + 1 = rest.length + instrLength i ∧ 1 ≤ instrLength i ∧ instrLength i ≤ 3

/-- Words written out from the spec's encodings decode to the instructions they stand for. -/
def Obligations.SpecWordsDecode : Prop :=
  decodeTableWord 24 0x45038E = some (.adda .r2 { indirect := false, index := .plain, addr := 0x0345 }) ∧
    decodeTableWord 24 0x00230E = some (.loda .r2 { indirect := false, index := .autoIncrement, addr := 0x0300 }) ∧
    decodeTableWord 16 0x7E18 = some (.bctr 0 { indirect := false, disp := 0x7E }) ∧
    decodeTableWord 24 0x20801D = some (.bcta 1 { indirect := true, addr := 0x0020 }) ∧
    decodeTableWord 16 0x849B = some (.zbrr { indirect := true, disp := 0x04 }) ∧
    decodeTableWord 8 0x40 = some .halt ∧ decodeTableWord 8 0xC0 = some .nop ∧ decodeTableWord 8 0x10 = none

/-! The step. -/

/-- A step that executes runs the instruction that the bytes at `pc` decode to, in the state its fetch leaves; where those
bytes are in RAM or ROM that state is `s` itself. -/
def Obligations.StepRunsDecodedInstruction : Prop :=
  ∀ (s : State) (i : Instr) (rest : List Byte), s.Executes →
    (let m1 := s.memRead s.pc
     let m2 := m1.2.memRead (s.nextAddr 1)
     let m3 := m2.2.memRead (s.nextAddr 2)
     decode [m1.1, m2.1, m3.1] = .ok (i, rest) →
      step s = tickOutcome (exec i (match instrLength i with | 1 => m1.2 | 2 => m2.2 | _ => m3.2))) ∧
    (decode s.codeBytes = .ok (i, rest) → (∀ k < instrLength i, s.plainAt (s.nextAddr k) = true) →
      step s = tickOutcome (exec i s))

/-- The machine stops only where a step that executes fetches one of the ten reserved bytes as an opcode, then with that byte;
it never refuses (D24). -/
def Obligations.StopsOnlyOnReservedOpcodes : Prop :=
  ∀ s : State,
    (∀ r : Fault, step s = .fault r ↔
      s.Executes ∧ (s.memRead s.pc).1 ∈ reservedBytes ∧ r = .reservedOpcode (s.memRead s.pc).1) ∧
    (∀ r : Refusal, step s ≠ .refused r) ∧
    (s.Safe ↔ ¬(s.Executes ∧ (s.memRead s.pc).1 ∈ reservedBytes))

/-- Interrupt entry: at a boundary with no reset, INTREQ asserted and II = 0, the next instruction's address goes to RAS[SP],
SP goes one on, II becomes 1, the wait state ends, and pc becomes the zero-page target of the vector byte; registers, PSL,
F, memory and the other stack entries are kept (D32, D34). -/
def Obligations.InterruptEntryEffect : Prop :=
  ∀ s : State, s.pins.reset = false → s.pins.intreq = true → psuII s.psu = false →
    ∃ (t : State) (e : Addr × State), step s = .next t.tick ∧
      TargetIs { s with waiting := false, events := .intAck s.pins.vector :: s.events } (s.pins.vector.getLsbD 7)
        ((s.pins.vector.extractLsb' 0 7).toInt % 8192).toNat e ∧
      t.pc = e.1 ∧ SameTraffic e.2 t ∧ t.waiting = false ∧ psuII t.psu = true ∧ psuSP t.psu = psuSP s.psu + 1 ∧
      t.psu &&& ~~~0x27#8 = s.psu &&& ~~~0x27#8 ∧ rasEntry t.ras (psuSP s.psu) = s.pc ∧
      (∀ k, k ≠ psuSP s.psu → rasEntry t.ras k = rasEntry s.ras k) ∧ RegsKept s t [] ∧ t.psl = s.psl ∧ MemKept s t

/-- With II = 1 the request changes nothing: the waiting processor waits on and the running one executes, whatever INTREQ
is (D32). -/
def Obligations.InhibitedRequestIsIgnored : Prop :=
  ∀ s : State, s.pins.reset = false → psuII s.psu = true →
    (s.waiting = true → step s = .next s.tick) ∧
    (s.waiting = false → ∀ (i : Instr) (t : State), s.fetch = .instr i t → step s = tickOutcome (exec i t))

/-- In the wait state, with no reset and no accepted request, a step changes nothing but the pins of the next boundary. -/
def Obligations.WaitStateHolds : Prop :=
  ∀ s : State, s.pins.reset = false → s.waiting = true → (s.pins.intreq = false ∨ psuII s.psu = true) →
    ∃ t : State, step s = .next t ∧ { t with pins := s.pins, schedule := s.schedule } = s

/-- RESET comes before everything: pc and II become 0, the wait state ends, memory is kept; nothing else is said of the
registers (D35). -/
def Obligations.ResetEffect : Prop :=
  ∀ s : State, s.pins.reset = true →
    ∃ t : State, step s = .next t.tick ∧ t.pc = 0x0000 ∧ psuII t.psu = false ∧ t.waiting = false ∧ t.mem = s.mem ∧
      t.params = s.params ∧ t.pins = s.pins ∧ t.schedule = s.schedule ∧ t.inputs = s.inputs ∧ t.events = s.events

/-- The values the spec states for reset: pc 0, II 0, running (D35). -/
def Obligations.ResetStateValues : Prop :=
  State.reset.pc = 0x0000 ∧ psuII State.reset.psu = false ∧ State.reset.waiting = false

/-- A step takes the pins of the next boundary from the schedule and never changes a parameter. The schedule is the model's
way to let the environment move its pins (log 7). -/
def Obligations.StepAdvancesPinsAndKeepsParameters : Prop :=
  ∀ s t : State, step s = .next t →
    t.params = s.params ∧ (s.schedule = [] → t.pins = s.pins ∧ t.schedule = []) ∧
      (∀ p rest, s.schedule = p :: rest → t.pins = p ∧ t.schedule = rest)

/-- The invariant is kept by every step: memory stays in canonical form, the bits of PSU that are not stored stay 0; both
forms are the model's (log 4, 15). -/
def Obligations.StepKeepsInvariant : Prop :=
  ∀ s t : State, s.Inv → step s = .next t → t.Inv

/-- The invariant holds at reset; its forms and the memory at reset are the model's (log 4, 15). -/
def Obligations.ResetHasInvariant : Prop :=
  State.reset.Inv

/-! Rules of the whole machine. -/

/-- Every instruction completes in every state: no instruction traps and none is privileged; parameters and pins are kept. -/
def Obligations.EveryInstructionCompletes : Prop :=
  ∀ (i : Instr) (s : State), ∃ t, exec i s = .next t ∧ t.params = s.params ∧ t.pins = s.pins ∧ t.schedule = s.schedule

/-- The flag column of the card: but for the writers of PSL, an instruction changes only the bits its column marks, and a
rotate with WC = 1 also C (under `FLAG_PROFILE = card`). -/
def Obligations.FlagColumnBoundsPslWrites : Prop :=
  ∀ (i : Instr) (s t : State), s.params.flagProfile = .card → writesPsl i = false → exec i s = .next t →
    t.psl &&& ~~~((flagColumn i).mask ||| if isRotate i && pslWC s.psl then 0x01 else 0x00) =
      s.psl &&& ~~~((flagColumn i).mask ||| if isRotate i && pslWC s.psl then 0x01 else 0x00)

/-- The only instructions that write memory are STRA and STRR. -/
def Obligations.OnlyStoresWriteMemory : Prop :=
  ∀ (i : Instr) (s t : State), isStore i = false → exec i s = .next t → t.mem = s.mem

/-- Only calls write the return address stack; a return leaves the entry it pops. -/
def Obligations.OnlyCallsWriteStack : Prop :=
  ∀ (i : Instr) (s t : State), isCall i = false → exec i s = .next t → t.ras = s.ras

/-- PSU is written by LPSU, CPSU, PPSU, by calls and returns through SP alone, and by RETE also through II, to 0. -/
def Obligations.PsuWriters : Prop :=
  ∀ (i : Instr) (s t : State), writesPsu i = false → exec i s = .next t →
    (isCall i = false → isReturn i = false → t.psu = s.psu) ∧
    (isCall i = true ∨ (∃ d, i = .retc d) → t.psu &&& ~~~0x07#8 = s.psu &&& ~~~0x07#8) ∧
    ((∃ d, i = .rete d) → t.psu &&& ~~~0x27#8 = s.psu &&& ~~~0x27#8 ∧ (psuII t.psu = psuII s.psu ∨ psuII t.psu = false))

/-- `waiting` is set by HALT and left alone by every other instruction. -/
def Obligations.OnlyHaltWaits : Prop :=
  ∀ (i : Instr) (s t : State), exec i s = .next t → (i = .halt → t.waiting = true) ∧ (i ≠ .halt → t.waiting = s.waiting)

/-- An instruction that is no branch, call or return goes on at the next address in its page. -/
def Obligations.StraightLineAdvances : Prop :=
  ∀ (i : Instr) (s t : State), isBranch i = false → isCall i = false → isReturn i = false → exec i s = .next t →
    t.pc.toNat = stepInPage s.pc.toNat (instrLength i)

/-- The registers of the bank not selected keep their values. -/
def Obligations.UnselectedBankKept : Prop :=
  ∀ (i : Instr) (s t : State) (n : Reg), n ≠ .r0 → exec i s = .next t →
    t.regAt (!pslRS s.psl) n = s.regAt (!pslRS s.psl) n

/-- The bank not selected cannot be reached: with other values in it, an instruction does the same and leaves them there. -/
def Obligations.UnselectedBankUnseen : Prop :=
  ∀ (i : Instr) (s t : State) (k : RegBank), exec i s = .next t →
    (pslRS s.psl = false → exec i { s with bank1 := k } = .next { t with bank1 := k }) ∧
    (pslRS s.psl = true → exec i { s with bank0 := k } = .next { t with bank0 := k })

/-- The contents of the return address stack are seen by returns alone: with other contents, any other instruction does the
same to everything but the stack. -/
def Obligations.StackSeenByReturnsAlone : Prop :=
  ∀ (i : Instr) (s t : State) (k : Vector Addr 8), isReturn i = false → exec i s = .next t →
    ∃ t', exec i { s with ras := k } = .next t' ∧ { t' with ras := t.ras } = t

/-! Memory and address operands. -/

/-- A read answers the byte held at RAM and ROM and changes nothing; at a device it takes the next byte the environment has
ready and is seen on the bus; at an empty address memory and what is ready stay as they are. The model's own choices: the
queue of ready bytes (log 8), the counter of free values (log 9, 21) and the list of reads (log 14); the spec says only that
the environment supplies a device's byte and that an empty address's byte is unspecified. -/
def Obligations.MemoryReadEffect : Prop :=
  ∀ (s : State) (a : Addr),
    (s.kindAt a = .ram ∨ s.kindAt a = .rom → s.memRead a = (s.peek a, s)) ∧
    (s.kindAt a = .device → ∀ b rest, s.inputs = b :: rest →
      s.memRead a = (b, { s with inputs := rest, events := .deviceRead a b :: s.events })) ∧
    (s.kindAt a = .device → s.inputs = [] → ∃ b,
      s.memRead a = (b, { s with freeCount := s.freeCount + 1, events := .deviceRead a b :: s.events })) ∧
    (s.kindAt a = .empty → ∃ b, s.memRead a = (b, { s with freeCount := s.freeCount + 1 }))

/-- A write is read back at a RAM address, changes nothing at ROM and empty addresses, is told to a device, and leaves every
other byte alone; nothing but memory and the bus changes. The canonical form (log 4) and the list of bus events (log 14) are
the model's own. -/
def Obligations.MemoryWriteEffect : Prop :=
  ∀ (s : State) (a : Addr) (v : Byte), StoredAt s (s.memWrite a v) a v ∧
    (s.kindAt a = .rom ∨ s.kindAt a = .empty → s.memWrite a v = s) ∧
    { s.memWrite a v with mem := s.mem, events := s.events } = s ∧ (Memory.wf s.mem → Memory.wf (s.memWrite a v).mem)

/-- The relative address counts from the next instruction and wraps in its page; the zero-page one counts from address 0 of
page 0 (D10, D11, D22). -/
def Obligations.RelativeAddresses : Prop :=
  ∀ (s : State) (l : RelOperand),
    TargetIs s l.indirect (stepInPage s.pc.toNat (2 + l.disp.toInt)) (s.relEA l) ∧
      TargetIs s l.indirect (l.disp.toInt % 8192).toNat (s.zeroRelEA l)

/-- The absolute branch address is any of the 32,768; BXA and BSXA add register 3 of the current bank after indirection,
modulo 32,768 (D9, D11, D21). -/
def Obligations.BranchAddresses : Prop :=
  ∀ (s : State) (b : BranchOperand),
    TargetIs s b.indirect b.addr.toNat (s.branchAbsEA b) ∧
      (s.indexedBranchEA b).1.toNat = ((s.branchAbsEA b).1.toNat + (s.reg .r3).toNat) % 32768 ∧
      (s.indexedBranchEA b).2 = (s.branchAbsEA b).2

/-- The non-branch absolute address: in the instruction's page, through its pointer if indirect, then, unless the index
control is 00, plus the index register, first incremented or decremented modulo 256, wrapping in that address's page; with
indexing the register operated on is R0 (D8, D11, D12). -/
def Obligations.AbsoluteAddresses : Prop :=
  ∀ (s : State) (r : Reg) (a : AbsOperand), ∃ e : Addr × State,
    TargetIs s a.indirect (s.pc.toNat / 8192 * 8192 + a.addr.toNat) e ∧
      (let x := s.absEA r a
       let old := (s.reg r).toNat
       let stepped := fun idx : Nat => (x.s.reg r).toNat = idx % 256 ∧ x.ea.toNat = stepInPage e.1.toNat (idx % 256 : Nat) ∧
         x.n = .r0 ∧ RegsKept s x.s [r] ∧ { x.s with r0 := s.r0, bank0 := s.bank0, bank1 := s.bank1 } = e.2
       (a.index = .plain → x.ea = e.1 ∧ x.n = r ∧ x.s = e.2) ∧
       (a.index = .autoIncrement → stepped (old + 1)) ∧
       (a.index = .autoDecrement → stepped (old + 255)) ∧
       (a.index = .indexed → x.ea.toNat = stepInPage e.1.toNat old ∧ x.n = .r0 ∧ x.s = e.2))

/-- The operands of the four forms: register n, the second operand, and the state after the form has been evaluated; the
first operand is register n read after that. -/
def Obligations.OperandForms : Prop :=
  ∀ s : State,
    (∀ r, let o := s.operandZ r; o.n = .r0 ∧ o.b = s.reg r ∧ o.s = s ∧ o.a = s.r0) ∧
    (∀ r i, let o := s.operandI r i; o.n = r ∧ o.b = i ∧ o.s = s ∧ o.a = s.reg r) ∧
    (∀ r l, let o := s.operandR r l
      o.n = r ∧ (o.b, o.s) = (s.relEA l).2.memRead (s.relEA l).1 ∧ o.a = s.reg r) ∧
    (∀ r a, let o := s.operandA r a
      o.n = (s.absEA r a).n ∧ (o.b, o.s) = (s.absEA r a).s.memRead (s.absEA r a).ea ∧
        (o.n ≠ r ∨ a.index = .plain → o.a = s.reg o.n) ∧ o.a = (s.absEA r a).s.reg o.n)

/-! Arithmetic. -/

/-- ADDZ, ADDI, ADDR, ADDA complete in every state: the sum with the carry in, modulo 256; C, IDC, OVF and CC as the exact
sums say; nothing else changes but a stepped index and pc (D15, D16). -/
def Obligations.AddEffect : Prop :=
  ∀ (f : Form) (s : State), ∃ t, exec f.add s = .next t ∧
    (let o := f.operand s
     let sum := o.a.toNat + o.b.toNat + carryIn s
     let signed : Int := o.a.toInt + o.b.toInt + carryIn s
     (t.reg o.n).toNat = sum % 256 ∧ (pslC t.psl = true ↔ 255 < sum) ∧
       (pslIDC t.psl = true ↔ 15 < o.a.toNat % 16 + o.b.toNat % 16 + carryIn s) ∧
       (pslOVF t.psl = true ↔ signed < -128 ∨ 127 < signed) ∧ CcSays (pslCC t.psl) (t.reg o.n)) ∧
    FormDone f s t 0xE5

/-- SUBZ, SUBI, SUBR, SUBA complete in every state: the difference less the borrow in, modulo 256; C = 1 says no borrow, IDC =
1 no borrow from the high digit; OVF and CC as the exact difference says; nothing else changes but a stepped index and pc
(D15, D16). -/
def Obligations.SubtractEffect : Prop :=
  ∀ (f : Form) (s : State), ∃ t, exec f.sub s = .next t ∧
    (let o := f.operand s
     let diff : Int := (o.a.toNat : Int) - o.b.toNat - borrowIn s
     let signed : Int := o.a.toInt - o.b.toInt - borrowIn s
     ((t.reg o.n).toNat : Int) = diff % 256 ∧ (pslC t.psl = true ↔ 0 ≤ diff) ∧
       (pslIDC t.psl = true ↔ o.b.toNat % 16 + borrowIn s ≤ o.a.toNat % 16) ∧
       (pslOVF t.psl = true ↔ signed < -128 ∨ 127 < signed) ∧ CcSays (pslCC t.psl) (t.reg o.n)) ∧
    FormDone f s t 0xE5

/-- COMZ, COMI, COMR, COMA complete in every state: CC is 01, 00 or 10 as the first operand is greater, equal or less, unsigned
with COM = 1 and signed with COM = 0; nothing else changes but a stepped index and pc (D13, D18). -/
def Obligations.CompareEffect : Prop :=
  ∀ (f : Form) (s : State), ∃ t, exec f.com s = .next t ∧
    (let o := f.operand s
     let u : Int := if pslCOM s.psl then (o.a.toNat : Int) else o.a.toInt
     let v : Int := if pslCOM s.psl then (o.b.toNat : Int) else o.b.toInt
     (v < u → pslCC t.psl = 0b01) ∧ (u = v → pslCC t.psl = 0b00) ∧ (u < v → pslCC t.psl = 0b10) ∧
       t.reg o.n = o.a ∧ QuietFrame s t f.stepped 0xC0 0) ∧
    FormDone f s t 0xC0

/-- DAR completes in every state: ten is added to the high digit if C = 0 and to the low digit if IDC = 0, each modulo 16;
no flag changes under `FLAG_PROFILE = card`, and CC at most under `manual` (D17, D27; log 13). -/
def Obligations.DecimalAdjustEffect : Prop :=
  ∀ (r : Reg) (s : State), ∃ t, exec (.dar r) s = .next t ∧
    (t.reg r).toNat =
      ((s.reg r).toNat / 16 + if pslC s.psl then 0 else 10) % 16 * 16 +
        ((s.reg r).toNat % 16 + if pslIDC s.psl then 0 else 10) % 16 ∧
    t.pc = s.nextAddr 1 ∧ QuietFrame s t [r] 0xC0 0 ∧ t.inputs = s.inputs ∧ t.events = s.events ∧
    (s.params.flagProfile = .card → t.psl = s.psl ∧ t.freeCount = s.freeCount)

/-- Decimal arithmetic: with WC = 0, ADDI 0x66, ADDI b, DAR adds two packed two-digit numbers, and SUBI b, DAR subtracts them,
modulo 100; C then says whether the sum reached 100, or that there was no borrow. -/
def Obligations.DecimalArithmetic : Prop :=
  ∀ (r : Reg) (m n : Nat) (s : State), m < 100 → n < 100 → pslWC s.psl = false → s.reg r = BitVec.ofNat 8 (packed m) →
    (∃ t u v, exec (.addi r 0x66) s = .next t ∧ exec (.addi r (BitVec.ofNat 8 (packed n))) t = .next u ∧
      exec (.dar r) u = .next v ∧ (v.reg r).toNat = packed ((m + n) % 100) ∧ (pslC v.psl = true ↔ 100 ≤ m + n)) ∧
    (∃ t u, exec (.subi r (BitVec.ofNat 8 (packed n))) s = .next t ∧ exec (.dar r) t = .next u ∧
      (u.reg r).toNat = packed ((100 + m - n) % 100) ∧ (pslC u.psl = true ↔ n ≤ m))

/-! Logic, loads, stores. -/

/-- The AND, EOR and IOR instructions in all four forms complete in every state: bit by bit, CC from the result; nothing else
changes but a stepped index and pc (D13). -/
def Obligations.LogicalEffect : Prop :=
  ∀ (f : Form) (s : State),
    (∃ t, exec f.and s = .next t ∧
      (∀ k < 8, (t.reg (f.operand s).n).getLsbD k = ((f.operand s).a.getLsbD k && (f.operand s).b.getLsbD k)) ∧
      CcSays (pslCC t.psl) (t.reg (f.operand s).n) ∧ FormDone f s t 0xC0) ∧
    (∃ t, exec f.eor s = .next t ∧
      (∀ k < 8, (t.reg (f.operand s).n).getLsbD k = ((f.operand s).a.getLsbD k ^^ (f.operand s).b.getLsbD k)) ∧
      CcSays (pslCC t.psl) (t.reg (f.operand s).n) ∧ FormDone f s t 0xC0) ∧
    (∃ t, exec f.ior s = .next t ∧
      (∀ k < 8, (t.reg (f.operand s).n).getLsbD k = ((f.operand s).a.getLsbD k || (f.operand s).b.getLsbD k)) ∧
      CcSays (pslCC t.psl) (t.reg (f.operand s).n) ∧ FormDone f s t 0xC0)

/-- TMI, TPSL and TPSU complete in every state: CC is 00 if every bit under the mask is 1, else 10; TPSL tests PSL as it was,
TPSU tests PSU as it reads; nothing else changes but pc (D19, D39). -/
def Obligations.TestMaskEffect : Prop :=
  ∀ (s : State) (mask : Byte),
    (∀ r, ∃ t, exec (.tmi r mask) s = .next t ∧ (AllSelected (s.reg r) mask → pslCC t.psl = 0b00) ∧
      (¬AllSelected (s.reg r) mask → pslCC t.psl = 0b10) ∧ t.pc = s.nextAddr 2 ∧ QuietFrame s t [] 0xC0 0 ∧
      SameTraffic s t) ∧
    (∃ t, exec (.tpsl mask) s = .next t ∧ (AllSelected s.psl mask → pslCC t.psl = 0b00) ∧
      (¬AllSelected s.psl mask → pslCC t.psl = 0b10) ∧ t.pc = s.nextAddr 2 ∧ QuietFrame s t [] 0xC0 0 ∧
      SameTraffic s t) ∧
    (∃ t, exec (.tpsu mask) s = .next t ∧ (AllSelected s.readPsu mask → pslCC t.psl = 0b00) ∧
      (¬AllSelected s.readPsu mask → pslCC t.psl = 0b10) ∧ t.pc = s.nextAddr 2 ∧ QuietFrame s t [] 0xC0 0 ∧
      SameTraffic s t)

/-- LODZ, LODI, LODR, LODA complete in every state: the register takes the second operand, CC follows it; nothing else changes
but a stepped index and pc (D13, D25). -/
def Obligations.LoadEffect : Prop :=
  ∀ (f : Form) (s : State), ∃ t, exec f.lod s = .next t ∧ t.reg (f.operand s).n = (f.operand s).b ∧
    CcSays (pslCC t.psl) (f.operand s).b ∧ FormDone f s t 0xC0

/-- STRA and STRR complete in every state: the byte at the effective address, and no other, takes the register; no flag, no
register but a stepped index (D31). -/
def Obligations.StoreEffect : Prop :=
  ∀ (r : Reg) (s : State),
    (∀ a, ∃ t, exec (.stra r a) s = .next t ∧
      (let e := s.absEA r a
       StoredAt e.s t e.ea (e.s.reg e.n) ∧ t.pc = s.nextAddr 3 ∧ Frame s t (steppedIndex r a) 0 0 ∧ t.ras = s.ras ∧
         (∀ n, t.reg n = e.s.reg n) ∧ ∀ b, b ≠ e.ea → t.peek b = s.peek b)) ∧
    (∀ l, ∃ t, exec (.strr r l) s = .next t ∧
      (let e := s.relEA l
       StoredAt e.2 t e.1 (s.reg r) ∧ t.pc = s.nextAddr 2 ∧ Frame s t [] 0 0 ∧ t.ras = s.ras ∧
         ∀ b, b ≠ e.1 → t.peek b = s.peek b))

/-- STRZ completes in every state: register r takes R0; no flag under `FLAG_PROFILE = card`, CC from the value under `manual`
(D27). -/
def Obligations.StoreRegisterZeroEffect : Prop :=
  ∀ (r : Reg) (s : State), ∃ t, exec (.strz r) s = .next t ∧ t.reg r = s.r0 ∧ t.pc = s.nextAddr 1 ∧
    QuietFrame s t [r] 0xC0 0 ∧ SameTraffic s t ∧ (s.params.flagProfile = .card → t.psl = s.psl) ∧
    (s.params.flagProfile = .manual → CcSays (pslCC t.psl) s.r0)

/-- STRA then LODA with the same plain operand at a RAM address leaves the register as it was and sets CC from it, wherever the
second instruction stands in the page. -/
def Obligations.StoreThenLoad : Prop :=
  ∀ (r : Reg) (addr : BitVec 13) (s t u v : State), Memory.wf s.mem → s.kindAt (samePage s.pc addr) = .ram →
    exec (.stra r { indirect := false, index := .plain, addr := addr }) s = .next t →
    (u.mem = t.mem ∧ u.params = t.params ∧ samePage u.pc addr = samePage s.pc addr) →
    exec (.loda r { indirect := false, index := .plain, addr := addr }) u = .next v →
    v.reg r = s.reg r ∧ CcSays (pslCC v.psl) (s.reg r)

/-- A store into the instruction stream is seen by the next fetch: the bytes at `pc` after STRR with displacement 0 begin with
the byte stored. -/
def Obligations.StoreIsFetched : Prop :=
  ∀ (r : Reg) (s t : State), Memory.wf s.mem → s.kindAt (s.nextAddr 2) = .ram →
    exec (.strr r { indirect := false, disp := 0 }) s = .next t →
    t.codeBytes.head? = some (s.reg r) ∧ (t.memRead t.pc).1 = s.reg r

/-! Branches. -/

/-- BCTR, BCTA, BCFR, BCFA complete in every state: taken, pc is the effective address; not taken, the next instruction and no
pointer is read; nothing else changes (D11, D14). -/
def Obligations.ConditionalBranches : Prop :=
  ∀ (d : Cond) (s : State),
    (∀ l, ∃ t, exec (.bctr d l) s = .next t ∧ WentTo s t (CondHolds s d) 2 (s.relEA l) ∧ QuietFrame s t [] 0 0) ∧
    (∀ b, ∃ t, exec (.bcta d b) s = .next t ∧ WentTo s t (CondHolds s d) 3 (s.branchAbsEA b) ∧
      QuietFrame s t [] 0 0) ∧
    (∀ l, ∃ t, exec (.bcfr d l) s = .next t ∧ WentTo s t (pslCC s.psl ≠ d) 2 (s.relEA l) ∧ QuietFrame s t [] 0 0) ∧
    (∀ b, ∃ t, exec (.bcfa d b) s = .next t ∧ WentTo s t (pslCC s.psl ≠ d) 3 (s.branchAbsEA b) ∧
      QuietFrame s t [] 0 0)

/-- For d other than 3 exactly one of BCTR,d and BCFR,d is taken, and likewise BCTA and BCFA: one of the two goes to the
effective address and the other to the next instruction. -/
def Obligations.ConditionsAreComplementary : Prop :=
  ∀ (d : Cond) (s t u : State), d ≠ 3 →
    (∀ l, exec (.bctr d l) s = .next t → exec (.bcfr d l) s = .next u →
      (t = goto (s.relEA l) ∧ u = s.advance 2) ∨ (t = s.advance 2 ∧ u = goto (s.relEA l))) ∧
    (∀ b, exec (.bcta d b) s = .next t → exec (.bcfa d b) s = .next u →
      (t = goto (s.branchAbsEA b) ∧ u = s.advance 3) ∨ (t = s.advance 3 ∧ u = goto (s.branchAbsEA b)))

/-- BRNR, BRNA, BIRR, BIRA, BDRR, BDRA complete in every state: BIRx and BDRx first write the register one up or down, modulo
256; the branch is taken when the register, as it then is, is not zero; no flag changes. -/
def Obligations.RegisterBranches : Prop :=
  ∀ (r : Reg) (s : State),
    (∀ l, ∃ t, exec (.brnr r l) s = .next t ∧ WentTo s t (s.reg r ≠ 0) 2 (s.relEA l) ∧ QuietFrame s t [] 0 0) ∧
    (∀ b, ∃ t, exec (.brna r b) s = .next t ∧ WentTo s t (s.reg r ≠ 0) 3 (s.branchAbsEA b) ∧ QuietFrame s t [] 0 0) ∧
    (∀ l, ∃ t, exec (.birr r l) s = .next t ∧ (t.reg r).toNat = ((s.reg r).toNat + 1) % 256 ∧
      WentTo s t (t.reg r ≠ 0) 2 (s.relEA l) ∧ QuietFrame s t [r] 0 0) ∧
    (∀ b, ∃ t, exec (.bira r b) s = .next t ∧ (t.reg r).toNat = ((s.reg r).toNat + 1) % 256 ∧
      WentTo s t (t.reg r ≠ 0) 3 (s.branchAbsEA b) ∧ QuietFrame s t [r] 0 0) ∧
    (∀ l, ∃ t, exec (.bdrr r l) s = .next t ∧ (t.reg r).toNat = ((s.reg r).toNat + 255) % 256 ∧
      WentTo s t (t.reg r ≠ 0) 2 (s.relEA l) ∧ QuietFrame s t [r] 0 0) ∧
    (∀ b, ∃ t, exec (.bdra r b) s = .next t ∧ (t.reg r).toNat = ((s.reg r).toNat + 255) % 256 ∧
      WentTo s t (t.reg r ≠ 0) 3 (s.branchAbsEA b) ∧ QuietFrame s t [r] 0 0)

/-- BXA and ZBRR complete in every state and always branch; nothing else changes. -/
def Obligations.UnconditionalBranches : Prop :=
  ∀ s : State,
    (∀ b, ∃ t, exec (.bxa b) s = .next t ∧ t.pc.toNat = ((s.branchAbsEA b).1.toNat + (s.reg .r3).toNat) % 32768 ∧
      SameTraffic (s.branchAbsEA b).2 t ∧ QuietFrame s t [] 0 0) ∧
    (∀ l, ∃ t e, exec (.zbrr l) s = .next t ∧ TargetIs s l.indirect (l.disp.toInt % 8192).toNat e ∧ t.pc = e.1 ∧
      SameTraffic e.2 t ∧ QuietFrame s t [] 0 0)

/-! Calls and returns. -/

/-- BSTR, BSTA, BSFR, BSFA, BSNR, BSNA complete in every state: taken, they push the next instruction's address and branch; not
taken, they go on. BSXA and ZBSR complete in every state and always call (D11, D14, D20, D21, D22). -/
def Obligations.CallEffect : Prop :=
  ∀ s : State,
    (∀ d l, ∃ t, exec (.bstr d l) s = .next t ∧ Called s t (CondHolds s d) 2 (s.relEA l)) ∧
    (∀ d b, ∃ t, exec (.bsta d b) s = .next t ∧ Called s t (CondHolds s d) 3 (s.branchAbsEA b)) ∧
    (∀ d l, ∃ t, exec (.bsfr d l) s = .next t ∧ Called s t (pslCC s.psl ≠ d) 2 (s.relEA l)) ∧
    (∀ d b, ∃ t, exec (.bsfa d b) s = .next t ∧ Called s t (pslCC s.psl ≠ d) 3 (s.branchAbsEA b)) ∧
    (∀ r l, ∃ t, exec (.bsnr r l) s = .next t ∧ Called s t (s.reg r ≠ 0) 2 (s.relEA l)) ∧
    (∀ r b, ∃ t, exec (.bsna r b) s = .next t ∧ Called s t (s.reg r ≠ 0) 3 (s.branchAbsEA b)) ∧
    (∀ b, ∃ t, exec (.bsxa b) s = .next t ∧ Called s t True 3 (s.indexedBranchEA b)) ∧
    (∀ l, ∃ t, exec (.zbsr l) s = .next t ∧ Called s t True 2 (s.zeroRelEA l))

/-- RETC and RETE complete in every state: taken, they pop; RETE taken also clears II, and not taken keeps it; nothing else
changes, the stack entries included (D14, D38). -/
def Obligations.ReturnEffect : Prop :=
  ∀ (d : Cond) (s : State),
    (∃ t, exec (.retc d) s = .next t ∧ Returned s t (CondHolds s d) ∧ QuietFrame s t [] 0 0x07 ∧ SameTraffic s t) ∧
    (∃ t, exec (.rete d) s = .next t ∧ Returned s t (CondHolds s d) ∧ QuietFrame s t [] 0 0x27 ∧ SameTraffic s t ∧
      (CondHolds s d → psuII t.psu = false))

/-- A taken call and, with no other stack operation between, a taken RETC or RETE resume at the instruction after the call with
SP as it was before it. -/
def Obligations.CallThenReturn : Prop :=
  ∀ (i j : Instr) (s t u v : State), isCall i = true → isReturn j = true → exec i s = .next t →
    psuSP t.psu ≠ psuSP s.psu → u.ras = t.ras → psuSP u.psu = psuSP t.psu → exec j u = .next v →
    psuSP v.psu ≠ psuSP u.psu → v.pc = s.nextAddr (instrLength i) ∧ psuSP v.psu = psuSP s.psu

/-- Eight return addresses stand on the stack in the order they were pushed, and the ninth overwrites the oldest (D20). -/
def Obligations.StackHoldsEightAddresses : Prop :=
  ∀ (s : State) (vs : List Addr),
    psuSP (pushAll s vs).psu = psuSP s.psu + BitVec.ofNat 3 vs.length ∧
    (∀ k (h : k < vs.length), vs.length ≤ k + 8 →
      rasEntry (pushAll s vs).ras (psuSP s.psu + BitVec.ofNat 3 k) = vs[k])

/-- HALT, an accepted interrupt, and a taken RETE from a handler that leaves the stack as it found it: the program resumes at
the instruction after the HALT, running, with II = 0 and SP as it was. -/
def Obligations.InterruptReturnsAfterHalt : Prop :=
  ∀ (d : Cond) (s t u v : State) (p : Pins), exec .halt s = .next t → psuII s.psu = false →
    p.reset = false → p.intreq = true → step { t with pins := p, schedule := [] } = .next u →
    psuII u.psu = true ∧
    (∀ h : State, h.ras = u.ras → psuSP h.psu = psuSP u.psu → CondHolds h d → exec (.rete d) h = .next v →
      v.pc = s.nextAddr 1 ∧ psuII v.psu = false ∧ psuSP v.psu = psuSP s.psu ∧ u.waiting = false)

/-! Program status. -/

/-- CPSL, PPSL, LPSL and SPSL complete in every state: the bits of PSL under the mask become 0 or 1, all of PSL becomes R0, or
R0 becomes PSL as it was; SPSL writes CC only under `FLAG_PROFILE = manual`, from the value (D27). -/
def Obligations.PslEffect : Prop :=
  ∀ s : State,
    (∀ mask, ∃ t, exec (.cpsl mask) s = .next t ∧ (∀ k < 8, t.psl.getLsbD k = (s.psl.getLsbD k && !mask.getLsbD k)) ∧
      t.pc = s.nextAddr 2 ∧ QuietFrame s t [] mask 0 ∧ SameTraffic s t) ∧
    (∀ mask, ∃ t, exec (.ppsl mask) s = .next t ∧ (∀ k < 8, t.psl.getLsbD k = (s.psl.getLsbD k || mask.getLsbD k)) ∧
      t.pc = s.nextAddr 2 ∧ QuietFrame s t [] mask 0 ∧ SameTraffic s t) ∧
    (∃ t, exec .lpsl s = .next t ∧ t.psl = s.r0 ∧ t.pc = s.nextAddr 1 ∧ QuietFrame s t [] 0xFF 0 ∧ SameTraffic s t) ∧
    (∃ t, exec .spsl s = .next t ∧ t.r0 = s.psl ∧ t.pc = s.nextAddr 1 ∧ QuietFrame s t [.r0] 0xC0 0 ∧ SameTraffic s t ∧
      (s.params.flagProfile = .card → t.psl = s.psl) ∧ (s.params.flagProfile = .manual → CcSays (pslCC t.psl) s.psl))

/-- CPSU, PPSU and LPSU complete in every state and write only the writable bits of PSU; SPSU reads PSU into R0 with the SENSE
pin as bit 7 and 0 for the bits that are not stored, and writes CC only under `FLAG_PROFILE = manual` (D23, D27, D39). -/
def Obligations.PsuEffect : Prop :=
  ∀ s : State,
    (∀ mask, ∃ t, exec (.cpsu mask) s = .next t ∧
      (∀ k < 8, (PsuWritable s.params.psu43 k → t.psu.getLsbD k = (s.psu.getLsbD k && !mask.getLsbD k)) ∧
        (¬PsuWritable s.params.psu43 k → t.psu.getLsbD k = s.psu.getLsbD k)) ∧
      t.pc = s.nextAddr 2 ∧ QuietFrame s t [] 0 mask ∧ SameTraffic s t) ∧
    (∀ mask, ∃ t, exec (.ppsu mask) s = .next t ∧
      (∀ k < 8, (PsuWritable s.params.psu43 k → t.psu.getLsbD k = (s.psu.getLsbD k || mask.getLsbD k)) ∧
        (¬PsuWritable s.params.psu43 k → t.psu.getLsbD k = s.psu.getLsbD k)) ∧
      t.pc = s.nextAddr 2 ∧ QuietFrame s t [] 0 mask ∧ SameTraffic s t) ∧
    (∃ t, exec .lpsu s = .next t ∧
      (∀ k < 8, (PsuWritable s.params.psu43 k → t.psu.getLsbD k = s.r0.getLsbD k) ∧
        (¬PsuWritable s.params.psu43 k → t.psu.getLsbD k = s.psu.getLsbD k)) ∧
      t.pc = s.nextAddr 1 ∧ QuietFrame s t [] 0 0x7F ∧ SameTraffic s t) ∧
    (∃ t, exec .spsu s = .next t ∧ t.r0.getLsbD 7 = s.pins.sense ∧
      (∀ k < 7, (PsuWritable s.params.psu43 k → t.r0.getLsbD k = s.psu.getLsbD k) ∧
        (¬PsuWritable s.params.psu43 k → t.r0.getLsbD k = false)) ∧
      t.pc = s.nextAddr 1 ∧ QuietFrame s t [.r0] 0xC0 0 ∧ SameTraffic s t ∧
      (s.params.flagProfile = .card → t.psl = s.psl) ∧ (s.params.flagProfile = .manual → CcSays (pslCC t.psl) t.r0))

/-- SPSL then LPSL restores PSL exactly (under `FLAG_PROFILE = card`, and under `manual` too), and SPSU then LPSU restores PSU,
whatever became of PSU and the SENSE pin between. -/
def Obligations.StatusSaveRestore : Prop :=
  ∀ s t u v : State, v.r0 = t.r0 → v.params = t.params →
    (exec .spsl s = .next t → exec .lpsl v = .next u → u.psl = s.psl) ∧
    (s.Inv → v.Inv → exec .spsu s = .next t → exec .lpsu v = .next u → u.psu = s.psu)

/-- HALT and NOP complete in every state: HALT sets `waiting`; both move pc to the next instruction and change nothing else
(D34). -/
def Obligations.HaltAndNop : Prop :=
  ∀ s : State,
    (∃ t, exec .halt s = .next t ∧ t.waiting = true ∧ t.pc = s.nextAddr 1 ∧
      { t with waiting := s.waiting, pc := s.pc } = s) ∧
    (∃ t, exec .nop s = .next t ∧ t.pc = s.nextAddr 1 ∧ { t with pc := s.pc } = s)

/-! Input and output. -/

/-- REDC, REDD and REDE complete in every state: one byte is taken from their port, the next the environment has ready if there
is one; the register takes it, CC follows it, and the transfer is seen on the bus (D28; the queue, the counter of free values
and the list of reads are the model's, log 8, 14, 21). -/
def Obligations.PortReadEffect : Prop :=
  ∀ (r : Reg) (port : Byte) (s : State),
    ∀ x ∈ [(Instr.redc r, Port.ctrl, 1), (Instr.redd r, Port.data, 1), (Instr.rede r port, Port.ext port, 2)],
    ∃ (t : State) (v : Byte), exec x.1 s = .next t ∧ t.reg r = v ∧ CcSays (pslCC t.psl) v ∧
      t.events = .ioRead x.2.1 v :: s.events ∧ t.pc = s.nextAddr x.2.2 ∧ QuietFrame s t [r] 0xC0 0 ∧
      (∀ b rest, s.inputs = b :: rest → v = b ∧ t.inputs = rest ∧ t.freeCount = s.freeCount) ∧
      (s.inputs = [] → t.inputs = [] ∧ t.freeCount = s.freeCount + 1)

/-- WRTC, WRTD and WRTE complete in every state: the register is handed to their port as one output event; no processor state
changes but pc (D28). -/
def Obligations.PortWriteEffect : Prop :=
  ∀ (r : Reg) (port : Byte) (s : State),
    ∀ x ∈ [(Instr.wrtc r, Port.ctrl, 1), (Instr.wrtd r, Port.data, 1), (Instr.wrte r port, Port.ext port, 2)],
    ∃ t : State, exec x.1 s = .next t ∧ t.events = .ioWrite x.2.1 (s.reg r) :: s.events ∧ t.pc = s.nextAddr x.2.2 ∧
      { t with events := s.events, pc := s.pc } = s

/-! Rotates. -/

/-- RRL and RRR complete in every state: with WC = 0 the eight bits of the register rotate one place, with WC = 1 the nine bits
of C and the register; no other flag under `FLAG_PROFILE = card`; under `manual` CC from the result, and with WC = 1 IDC from
bit 5 of it and OVF from a change of bit 7 (D26, D27; the `manual` clause is section 3 of 93_implementation_defined.md, the
spec's general knowledge, log 17). -/
def Obligations.RotateEffect : Prop :=
  ∀ (r : Reg) (s : State), ∀ left : Bool, ∃ t, exec (if left then .rrl r else .rrr r) s = .next t ∧
    (pslWC s.psl = false → pslC t.psl = pslC s.psl ∧
      t.reg r = if left then (s.reg r).rotateLeft 1 else (s.reg r).rotateRight 1) ∧
    (pslWC s.psl = true → BitVec.ofBool (pslC t.psl) ++ t.reg r =
      if left then (BitVec.ofBool (pslC s.psl) ++ s.reg r).rotateLeft 1
      else (BitVec.ofBool (pslC s.psl) ++ s.reg r).rotateRight 1) ∧
    t.pc = s.nextAddr 1 ∧ QuietFrame s t [r] 0xE5 0 ∧ SameTraffic s t ∧
    (s.params.flagProfile = .card → t.psl &&& ~~~0x01#8 = s.psl &&& ~~~0x01#8) ∧
    (s.params.flagProfile = .manual → CcSays (pslCC t.psl) (t.reg r) ∧
      (pslWC s.psl = false → t.psl &&& ~~~0xC0#8 = s.psl &&& ~~~0xC0#8) ∧
      (pslWC s.psl = true → pslIDC t.psl = (t.reg r).getLsbD 5 ∧
        pslOVF t.psl = ((t.reg r).getLsbD 7 ^^ (s.reg r).getLsbD 7)))

/-- RRL and RRR undo each other, in the register and in C, and under `FLAG_PROFILE = card` in all of PSL. -/
def Obligations.RotatesAreInverse : Prop :=
  ∀ (r : Reg) (s t u : State),
    (exec (.rrl r) s = .next t ∧ exec (.rrr r) t = .next u) ∨ (exec (.rrr r) s = .next t ∧ exec (.rrl r) t = .next u) →
    u.reg r = s.reg r ∧ pslC u.psl = pslC s.psl ∧ (s.params.flagProfile = .card → u.psl = s.psl)
end

