-- ==== Sys2Proof/Laws/State.lean ====
section
/-! SUPPORT. One lemma per field of the state for every operation that leaves the field as it was, and the fields the plain
updates write, so that no proof unfolds a record update. -/

namespace Sys2Proof.Machine

variable (s : State)

/-- The state `AbsEA` leaves: the pointer read, then the index register stepped. -/
theorem absEA_s (r : Reg) (a : AbsOperand) :
    (s.absEA r a).s = (s.indirectIf a.indirect (samePage s.pc a.addr)).2.stepIndex r a.index := by
  unfold State.absEA; split <;> rfl

@[simp] theorem operandZ_s (r : Reg) : (s.operandZ r).s = s := rfl
@[simp] theorem operandZ_n (r : Reg) : (s.operandZ r).n = .r0 := rfl
@[simp] theorem operandZ_b (r : Reg) : (s.operandZ r).b = s.reg r := rfl
@[simp] theorem operandI_s (r : Reg) (imm : Byte) : (s.operandI r imm).s = s := rfl
@[simp] theorem operandI_n (r : Reg) (imm : Byte) : (s.operandI r imm).n = r := rfl
@[simp] theorem operandI_b (r : Reg) (imm : Byte) : (s.operandI r imm).b = imm := rfl
@[simp] theorem operandR_n (r : Reg) (l : RelOperand) : (s.operandR r l).n = r := rfl

/-! Fields written. -/

@[simp] theorem setReg_r0 (r : Reg) (v : Byte) : (s.setReg r v).r0 = if r = .r0 then v else s.r0 := rfl
@[simp] theorem setReg_bank0 (r : Reg) (v : Byte) :
    (s.setReg r v).bank0 = if pslRS s.psl then s.bank0 else s.bank0.set r v := rfl
@[simp] theorem setReg_bank1 (r : Reg) (v : Byte) :
    (s.setReg r v).bank1 = if pslRS s.psl then s.bank1.set r v else s.bank1 := rfl
@[simp] theorem setPc_pc (t : Addr) : (s.setPc t).pc = t := rfl
@[simp] theorem advance_pc (n : Nat) : (s.advance n).pc = s.nextAddr n := rfl
@[simp] theorem setPsl_psl (v : Byte) : (s.setPsl v).psl = v := rfl
@[simp] theorem setCC_psl (v : Byte) : (s.setCC v).psl = withCC s.psl (ccOf v) := rfl
@[simp] theorem push_psu (v : Addr) : (s.push v).psu = withSP s.psu (psuSP s.psu + 1) := rfl
@[simp] theorem popPc_psu : s.popPc.psu = withSP s.psu (psuSP s.psu - 1) := rfl
@[simp] theorem popPc_pc : s.popPc.pc = rasEntry s.ras (psuSP s.psu - 1) := rfl
@[simp] theorem record_events (e : Event) : (s.record e).events = e :: s.events := rfl
@[simp] theorem ioWrite_events (p : Port) (v : Byte) : (s.ioWrite p v).events = .ioWrite p v :: s.events := rfl
@[simp] theorem resetStep_pc : s.resetStep.pc = 0x0000 := rfl
@[simp] theorem resetStep_waiting : s.resetStep.waiting = false := rfl

/-! Fields kept. -/

@[simp] theorem setReg_pc (r : Reg) (v : Byte) : (s.setReg r v).pc = s.pc := rfl
@[simp] theorem setReg_psu (r : Reg) (v : Byte) : (s.setReg r v).psu = s.psu := rfl
@[simp] theorem setReg_psl (r : Reg) (v : Byte) : (s.setReg r v).psl = s.psl := rfl
@[simp] theorem setReg_ras (r : Reg) (v : Byte) : (s.setReg r v).ras = s.ras := rfl
@[simp] theorem setReg_waiting (r : Reg) (v : Byte) : (s.setReg r v).waiting = s.waiting := rfl
@[simp] theorem setReg_mem (r : Reg) (v : Byte) : (s.setReg r v).mem = s.mem := rfl
@[simp] theorem setReg_params (r : Reg) (v : Byte) : (s.setReg r v).params = s.params := rfl
@[simp] theorem setReg_pins (r : Reg) (v : Byte) : (s.setReg r v).pins = s.pins := rfl
@[simp] theorem setReg_schedule (r : Reg) (v : Byte) : (s.setReg r v).schedule = s.schedule := rfl
@[simp] theorem setReg_inputs (r : Reg) (v : Byte) : (s.setReg r v).inputs = s.inputs := rfl
@[simp] theorem setReg_freeCount (r : Reg) (v : Byte) : (s.setReg r v).freeCount = s.freeCount := rfl
@[simp] theorem setReg_events (r : Reg) (v : Byte) : (s.setReg r v).events = s.events := rfl

@[simp] theorem setPc_r0 (t : Addr) : (s.setPc t).r0 = s.r0 := rfl
@[simp] theorem setPc_bank0 (t : Addr) : (s.setPc t).bank0 = s.bank0 := rfl
@[simp] theorem setPc_bank1 (t : Addr) : (s.setPc t).bank1 = s.bank1 := rfl
@[simp] theorem setPc_psu (t : Addr) : (s.setPc t).psu = s.psu := rfl
@[simp] theorem setPc_psl (t : Addr) : (s.setPc t).psl = s.psl := rfl
@[simp] theorem setPc_ras (t : Addr) : (s.setPc t).ras = s.ras := rfl
@[simp] theorem setPc_waiting (t : Addr) : (s.setPc t).waiting = s.waiting := rfl
@[simp] theorem setPc_mem (t : Addr) : (s.setPc t).mem = s.mem := rfl
@[simp] theorem setPc_params (t : Addr) : (s.setPc t).params = s.params := rfl
@[simp] theorem setPc_pins (t : Addr) : (s.setPc t).pins = s.pins := rfl
@[simp] theorem setPc_schedule (t : Addr) : (s.setPc t).schedule = s.schedule := rfl
@[simp] theorem setPc_inputs (t : Addr) : (s.setPc t).inputs = s.inputs := rfl
@[simp] theorem setPc_freeCount (t : Addr) : (s.setPc t).freeCount = s.freeCount := rfl
@[simp] theorem setPc_events (t : Addr) : (s.setPc t).events = s.events := rfl

@[simp] theorem advance_r0 (n : Nat) : (s.advance n).r0 = s.r0 := rfl
@[simp] theorem advance_bank0 (n : Nat) : (s.advance n).bank0 = s.bank0 := rfl
@[simp] theorem advance_bank1 (n : Nat) : (s.advance n).bank1 = s.bank1 := rfl
@[simp] theorem advance_psu (n : Nat) : (s.advance n).psu = s.psu := rfl
@[simp] theorem advance_psl (n : Nat) : (s.advance n).psl = s.psl := rfl
@[simp] theorem advance_ras (n : Nat) : (s.advance n).ras = s.ras := rfl
@[simp] theorem advance_waiting (n : Nat) : (s.advance n).waiting = s.waiting := rfl
@[simp] theorem advance_mem (n : Nat) : (s.advance n).mem = s.mem := rfl
@[simp] theorem advance_params (n : Nat) : (s.advance n).params = s.params := rfl
@[simp] theorem advance_pins (n : Nat) : (s.advance n).pins = s.pins := rfl
@[simp] theorem advance_schedule (n : Nat) : (s.advance n).schedule = s.schedule := rfl
@[simp] theorem advance_inputs (n : Nat) : (s.advance n).inputs = s.inputs := rfl
@[simp] theorem advance_freeCount (n : Nat) : (s.advance n).freeCount = s.freeCount := rfl
@[simp] theorem advance_events (n : Nat) : (s.advance n).events = s.events := rfl

@[simp] theorem setPsl_r0 (v : Byte) : (s.setPsl v).r0 = s.r0 := rfl
@[simp] theorem setPsl_bank0 (v : Byte) : (s.setPsl v).bank0 = s.bank0 := rfl
@[simp] theorem setPsl_bank1 (v : Byte) : (s.setPsl v).bank1 = s.bank1 := rfl
@[simp] theorem setPsl_pc (v : Byte) : (s.setPsl v).pc = s.pc := rfl
@[simp] theorem setPsl_psu (v : Byte) : (s.setPsl v).psu = s.psu := rfl
@[simp] theorem setPsl_ras (v : Byte) : (s.setPsl v).ras = s.ras := rfl
@[simp] theorem setPsl_waiting (v : Byte) : (s.setPsl v).waiting = s.waiting := rfl
@[simp] theorem setPsl_mem (v : Byte) : (s.setPsl v).mem = s.mem := rfl
@[simp] theorem setPsl_params (v : Byte) : (s.setPsl v).params = s.params := rfl
@[simp] theorem setPsl_pins (v : Byte) : (s.setPsl v).pins = s.pins := rfl
@[simp] theorem setPsl_schedule (v : Byte) : (s.setPsl v).schedule = s.schedule := rfl
@[simp] theorem setPsl_inputs (v : Byte) : (s.setPsl v).inputs = s.inputs := rfl
@[simp] theorem setPsl_freeCount (v : Byte) : (s.setPsl v).freeCount = s.freeCount := rfl
@[simp] theorem setPsl_events (v : Byte) : (s.setPsl v).events = s.events := rfl

@[simp] theorem setCC_r0 (v : Byte) : (s.setCC v).r0 = s.r0 := rfl
@[simp] theorem setCC_bank0 (v : Byte) : (s.setCC v).bank0 = s.bank0 := rfl
@[simp] theorem setCC_bank1 (v : Byte) : (s.setCC v).bank1 = s.bank1 := rfl
@[simp] theorem setCC_pc (v : Byte) : (s.setCC v).pc = s.pc := rfl
@[simp] theorem setCC_psu (v : Byte) : (s.setCC v).psu = s.psu := rfl
@[simp] theorem setCC_ras (v : Byte) : (s.setCC v).ras = s.ras := rfl
@[simp] theorem setCC_waiting (v : Byte) : (s.setCC v).waiting = s.waiting := rfl
@[simp] theorem setCC_mem (v : Byte) : (s.setCC v).mem = s.mem := rfl
@[simp] theorem setCC_params (v : Byte) : (s.setCC v).params = s.params := rfl
@[simp] theorem setCC_pins (v : Byte) : (s.setCC v).pins = s.pins := rfl
@[simp] theorem setCC_schedule (v : Byte) : (s.setCC v).schedule = s.schedule := rfl
@[simp] theorem setCC_inputs (v : Byte) : (s.setCC v).inputs = s.inputs := rfl
@[simp] theorem setCC_freeCount (v : Byte) : (s.setCC v).freeCount = s.freeCount := rfl
@[simp] theorem setCC_events (v : Byte) : (s.setCC v).events = s.events := rfl

@[simp] theorem setCCManual_r0 (v : Byte) : (s.setCCManual v).r0 = s.r0 := rfl
@[simp] theorem setCCManual_bank0 (v : Byte) : (s.setCCManual v).bank0 = s.bank0 := rfl
@[simp] theorem setCCManual_bank1 (v : Byte) : (s.setCCManual v).bank1 = s.bank1 := rfl
@[simp] theorem setCCManual_pc (v : Byte) : (s.setCCManual v).pc = s.pc := rfl
@[simp] theorem setCCManual_psu (v : Byte) : (s.setCCManual v).psu = s.psu := rfl
@[simp] theorem setCCManual_ras (v : Byte) : (s.setCCManual v).ras = s.ras := rfl
@[simp] theorem setCCManual_waiting (v : Byte) : (s.setCCManual v).waiting = s.waiting := rfl
@[simp] theorem setCCManual_mem (v : Byte) : (s.setCCManual v).mem = s.mem := rfl
@[simp] theorem setCCManual_params (v : Byte) : (s.setCCManual v).params = s.params := rfl
@[simp] theorem setCCManual_pins (v : Byte) : (s.setCCManual v).pins = s.pins := rfl
@[simp] theorem setCCManual_schedule (v : Byte) : (s.setCCManual v).schedule = s.schedule := rfl
@[simp] theorem setCCManual_inputs (v : Byte) : (s.setCCManual v).inputs = s.inputs := rfl
@[simp] theorem setCCManual_freeCount (v : Byte) : (s.setCCManual v).freeCount = s.freeCount := rfl
@[simp] theorem setCCManual_events (v : Byte) : (s.setCCManual v).events = s.events := rfl

@[simp] theorem writePsu_r0 (v : Byte) : (s.writePsu v).r0 = s.r0 := rfl
@[simp] theorem writePsu_bank0 (v : Byte) : (s.writePsu v).bank0 = s.bank0 := rfl
@[simp] theorem writePsu_bank1 (v : Byte) : (s.writePsu v).bank1 = s.bank1 := rfl
@[simp] theorem writePsu_pc (v : Byte) : (s.writePsu v).pc = s.pc := rfl
@[simp] theorem writePsu_psl (v : Byte) : (s.writePsu v).psl = s.psl := rfl
@[simp] theorem writePsu_ras (v : Byte) : (s.writePsu v).ras = s.ras := rfl
@[simp] theorem writePsu_waiting (v : Byte) : (s.writePsu v).waiting = s.waiting := rfl
@[simp] theorem writePsu_mem (v : Byte) : (s.writePsu v).mem = s.mem := rfl
@[simp] theorem writePsu_params (v : Byte) : (s.writePsu v).params = s.params := rfl
@[simp] theorem writePsu_pins (v : Byte) : (s.writePsu v).pins = s.pins := rfl
@[simp] theorem writePsu_schedule (v : Byte) : (s.writePsu v).schedule = s.schedule := rfl
@[simp] theorem writePsu_inputs (v : Byte) : (s.writePsu v).inputs = s.inputs := rfl
@[simp] theorem writePsu_freeCount (v : Byte) : (s.writePsu v).freeCount = s.freeCount := rfl
@[simp] theorem writePsu_events (v : Byte) : (s.writePsu v).events = s.events := rfl

@[simp] theorem push_r0 (v : Addr) : (s.push v).r0 = s.r0 := rfl
@[simp] theorem push_bank0 (v : Addr) : (s.push v).bank0 = s.bank0 := rfl
@[simp] theorem push_bank1 (v : Addr) : (s.push v).bank1 = s.bank1 := rfl
@[simp] theorem push_pc (v : Addr) : (s.push v).pc = s.pc := rfl
@[simp] theorem push_psl (v : Addr) : (s.push v).psl = s.psl := rfl
@[simp] theorem push_waiting (v : Addr) : (s.push v).waiting = s.waiting := rfl
@[simp] theorem push_mem (v : Addr) : (s.push v).mem = s.mem := rfl
@[simp] theorem push_params (v : Addr) : (s.push v).params = s.params := rfl
@[simp] theorem push_pins (v : Addr) : (s.push v).pins = s.pins := rfl
@[simp] theorem push_schedule (v : Addr) : (s.push v).schedule = s.schedule := rfl
@[simp] theorem push_inputs (v : Addr) : (s.push v).inputs = s.inputs := rfl
@[simp] theorem push_freeCount (v : Addr) : (s.push v).freeCount = s.freeCount := rfl
@[simp] theorem push_events (v : Addr) : (s.push v).events = s.events := rfl

@[simp] theorem popPc_r0 : s.popPc.r0 = s.r0 := rfl
@[simp] theorem popPc_bank0 : s.popPc.bank0 = s.bank0 := rfl
@[simp] theorem popPc_bank1 : s.popPc.bank1 = s.bank1 := rfl
@[simp] theorem popPc_psl : s.popPc.psl = s.psl := rfl
@[simp] theorem popPc_ras : s.popPc.ras = s.ras := rfl
@[simp] theorem popPc_waiting : s.popPc.waiting = s.waiting := rfl
@[simp] theorem popPc_mem : s.popPc.mem = s.mem := rfl
@[simp] theorem popPc_params : s.popPc.params = s.params := rfl
@[simp] theorem popPc_pins : s.popPc.pins = s.pins := rfl
@[simp] theorem popPc_schedule : s.popPc.schedule = s.schedule := rfl
@[simp] theorem popPc_inputs : s.popPc.inputs = s.inputs := rfl
@[simp] theorem popPc_freeCount : s.popPc.freeCount = s.freeCount := rfl
@[simp] theorem popPc_events : s.popPc.events = s.events := rfl

@[simp] theorem record_r0 (e : Event) : (s.record e).r0 = s.r0 := rfl
@[simp] theorem record_bank0 (e : Event) : (s.record e).bank0 = s.bank0 := rfl
@[simp] theorem record_bank1 (e : Event) : (s.record e).bank1 = s.bank1 := rfl
@[simp] theorem record_pc (e : Event) : (s.record e).pc = s.pc := rfl
@[simp] theorem record_psu (e : Event) : (s.record e).psu = s.psu := rfl
@[simp] theorem record_psl (e : Event) : (s.record e).psl = s.psl := rfl
@[simp] theorem record_ras (e : Event) : (s.record e).ras = s.ras := rfl
@[simp] theorem record_waiting (e : Event) : (s.record e).waiting = s.waiting := rfl
@[simp] theorem record_mem (e : Event) : (s.record e).mem = s.mem := rfl
@[simp] theorem record_params (e : Event) : (s.record e).params = s.params := rfl
@[simp] theorem record_pins (e : Event) : (s.record e).pins = s.pins := rfl
@[simp] theorem record_schedule (e : Event) : (s.record e).schedule = s.schedule := rfl
@[simp] theorem record_inputs (e : Event) : (s.record e).inputs = s.inputs := rfl
@[simp] theorem record_freeCount (e : Event) : (s.record e).freeCount = s.freeCount := rfl

@[simp] theorem ioWrite_r0 (p : Port) (v : Byte) : (s.ioWrite p v).r0 = s.r0 := rfl
@[simp] theorem ioWrite_bank0 (p : Port) (v : Byte) : (s.ioWrite p v).bank0 = s.bank0 := rfl
@[simp] theorem ioWrite_bank1 (p : Port) (v : Byte) : (s.ioWrite p v).bank1 = s.bank1 := rfl
@[simp] theorem ioWrite_pc (p : Port) (v : Byte) : (s.ioWrite p v).pc = s.pc := rfl
@[simp] theorem ioWrite_psu (p : Port) (v : Byte) : (s.ioWrite p v).psu = s.psu := rfl
@[simp] theorem ioWrite_psl (p : Port) (v : Byte) : (s.ioWrite p v).psl = s.psl := rfl
@[simp] theorem ioWrite_ras (p : Port) (v : Byte) : (s.ioWrite p v).ras = s.ras := rfl
@[simp] theorem ioWrite_waiting (p : Port) (v : Byte) : (s.ioWrite p v).waiting = s.waiting := rfl
@[simp] theorem ioWrite_mem (p : Port) (v : Byte) : (s.ioWrite p v).mem = s.mem := rfl
@[simp] theorem ioWrite_params (p : Port) (v : Byte) : (s.ioWrite p v).params = s.params := rfl
@[simp] theorem ioWrite_pins (p : Port) (v : Byte) : (s.ioWrite p v).pins = s.pins := rfl
@[simp] theorem ioWrite_schedule (p : Port) (v : Byte) : (s.ioWrite p v).schedule = s.schedule := rfl
@[simp] theorem ioWrite_inputs (p : Port) (v : Byte) : (s.ioWrite p v).inputs = s.inputs := rfl
@[simp] theorem ioWrite_freeCount (p : Port) (v : Byte) : (s.ioWrite p v).freeCount = s.freeCount := rfl

@[simp] theorem returnFromInterrupt_r0 : s.returnFromInterrupt.r0 = s.r0 := rfl
@[simp] theorem returnFromInterrupt_bank0 : s.returnFromInterrupt.bank0 = s.bank0 := rfl
@[simp] theorem returnFromInterrupt_bank1 : s.returnFromInterrupt.bank1 = s.bank1 := rfl
@[simp] theorem returnFromInterrupt_psl : s.returnFromInterrupt.psl = s.psl := rfl
@[simp] theorem returnFromInterrupt_ras : s.returnFromInterrupt.ras = s.ras := rfl
@[simp] theorem returnFromInterrupt_waiting : s.returnFromInterrupt.waiting = s.waiting := rfl
@[simp] theorem returnFromInterrupt_mem : s.returnFromInterrupt.mem = s.mem := rfl
@[simp] theorem returnFromInterrupt_params : s.returnFromInterrupt.params = s.params := rfl
@[simp] theorem returnFromInterrupt_pins : s.returnFromInterrupt.pins = s.pins := rfl
@[simp] theorem returnFromInterrupt_schedule : s.returnFromInterrupt.schedule = s.schedule := rfl
@[simp] theorem returnFromInterrupt_inputs : s.returnFromInterrupt.inputs = s.inputs := rfl
@[simp] theorem returnFromInterrupt_freeCount : s.returnFromInterrupt.freeCount = s.freeCount := rfl
@[simp] theorem returnFromInterrupt_events : s.returnFromInterrupt.events = s.events := rfl

@[simp] theorem resetStep_mem : s.resetStep.mem = s.mem := rfl
@[simp] theorem resetStep_params : s.resetStep.params = s.params := rfl
@[simp] theorem resetStep_pins : s.resetStep.pins = s.pins := rfl
@[simp] theorem resetStep_schedule : s.resetStep.schedule = s.schedule := rfl
@[simp] theorem resetStep_inputs : s.resetStep.inputs = s.inputs := rfl
@[simp] theorem resetStep_events : s.resetStep.events = s.events := rfl

@[simp] theorem tick_r0 : s.tick.r0 = s.r0 := by unfold State.tick; split <;> rfl
@[simp] theorem tick_bank0 : s.tick.bank0 = s.bank0 := by unfold State.tick; split <;> rfl
@[simp] theorem tick_bank1 : s.tick.bank1 = s.bank1 := by unfold State.tick; split <;> rfl
@[simp] theorem tick_pc : s.tick.pc = s.pc := by unfold State.tick; split <;> rfl
@[simp] theorem tick_psu : s.tick.psu = s.psu := by unfold State.tick; split <;> rfl
@[simp] theorem tick_psl : s.tick.psl = s.psl := by unfold State.tick; split <;> rfl
@[simp] theorem tick_ras : s.tick.ras = s.ras := by unfold State.tick; split <;> rfl
@[simp] theorem tick_waiting : s.tick.waiting = s.waiting := by unfold State.tick; split <;> rfl
@[simp] theorem tick_mem : s.tick.mem = s.mem := by unfold State.tick; split <;> rfl
@[simp] theorem tick_params : s.tick.params = s.params := by unfold State.tick; split <;> rfl
@[simp] theorem tick_inputs : s.tick.inputs = s.inputs := by unfold State.tick; split <;> rfl
@[simp] theorem tick_freeCount : s.tick.freeCount = s.freeCount := by unfold State.tick; split <;> rfl
@[simp] theorem tick_events : s.tick.events = s.events := by unfold State.tick; split <;> rfl

@[simp] theorem inputByte_r0 : s.inputByte.2.r0 = s.r0 := by unfold State.inputByte; split <;> rfl
@[simp] theorem inputByte_bank0 : s.inputByte.2.bank0 = s.bank0 := by unfold State.inputByte; split <;> rfl
@[simp] theorem inputByte_bank1 : s.inputByte.2.bank1 = s.bank1 := by unfold State.inputByte; split <;> rfl
@[simp] theorem inputByte_pc : s.inputByte.2.pc = s.pc := by unfold State.inputByte; split <;> rfl
@[simp] theorem inputByte_psu : s.inputByte.2.psu = s.psu := by unfold State.inputByte; split <;> rfl
@[simp] theorem inputByte_psl : s.inputByte.2.psl = s.psl := by unfold State.inputByte; split <;> rfl
@[simp] theorem inputByte_ras : s.inputByte.2.ras = s.ras := by unfold State.inputByte; split <;> rfl
@[simp] theorem inputByte_waiting : s.inputByte.2.waiting = s.waiting := by unfold State.inputByte; split <;> rfl
@[simp] theorem inputByte_mem : s.inputByte.2.mem = s.mem := by unfold State.inputByte; split <;> rfl
@[simp] theorem inputByte_params : s.inputByte.2.params = s.params := by unfold State.inputByte; split <;> rfl
@[simp] theorem inputByte_pins : s.inputByte.2.pins = s.pins := by unfold State.inputByte; split <;> rfl
@[simp] theorem inputByte_schedule : s.inputByte.2.schedule = s.schedule := by unfold State.inputByte; split <;> rfl

@[simp] theorem memRead_r0 (a : Addr) : (s.memRead a).2.r0 = s.r0 := by unfold State.memRead; split <;> simp
@[simp] theorem memRead_bank0 (a : Addr) : (s.memRead a).2.bank0 = s.bank0 := by unfold State.memRead; split <;> simp
@[simp] theorem memRead_bank1 (a : Addr) : (s.memRead a).2.bank1 = s.bank1 := by unfold State.memRead; split <;> simp
@[simp] theorem memRead_pc (a : Addr) : (s.memRead a).2.pc = s.pc := by unfold State.memRead; split <;> simp
@[simp] theorem memRead_psu (a : Addr) : (s.memRead a).2.psu = s.psu := by unfold State.memRead; split <;> simp
@[simp] theorem memRead_psl (a : Addr) : (s.memRead a).2.psl = s.psl := by unfold State.memRead; split <;> simp
@[simp] theorem memRead_ras (a : Addr) : (s.memRead a).2.ras = s.ras := by unfold State.memRead; split <;> simp
@[simp] theorem memRead_waiting (a : Addr) : (s.memRead a).2.waiting = s.waiting := by unfold State.memRead; split <;> simp
@[simp] theorem memRead_mem (a : Addr) : (s.memRead a).2.mem = s.mem := by unfold State.memRead; split <;> simp
@[simp] theorem memRead_params (a : Addr) : (s.memRead a).2.params = s.params := by unfold State.memRead; split <;> simp
@[simp] theorem memRead_pins (a : Addr) : (s.memRead a).2.pins = s.pins := by unfold State.memRead; split <;> simp
@[simp] theorem memRead_schedule (a : Addr) : (s.memRead a).2.schedule = s.schedule := by unfold State.memRead; split <;> simp

@[simp] theorem ioRead_r0 (p : Port) : (s.ioRead p).2.r0 = s.r0 := by simp [State.ioRead]
@[simp] theorem ioRead_bank0 (p : Port) : (s.ioRead p).2.bank0 = s.bank0 := by simp [State.ioRead]
@[simp] theorem ioRead_bank1 (p : Port) : (s.ioRead p).2.bank1 = s.bank1 := by simp [State.ioRead]
@[simp] theorem ioRead_pc (p : Port) : (s.ioRead p).2.pc = s.pc := by simp [State.ioRead]
@[simp] theorem ioRead_psu (p : Port) : (s.ioRead p).2.psu = s.psu := by simp [State.ioRead]
@[simp] theorem ioRead_psl (p : Port) : (s.ioRead p).2.psl = s.psl := by simp [State.ioRead]
@[simp] theorem ioRead_ras (p : Port) : (s.ioRead p).2.ras = s.ras := by simp [State.ioRead]
@[simp] theorem ioRead_waiting (p : Port) : (s.ioRead p).2.waiting = s.waiting := by simp [State.ioRead]
@[simp] theorem ioRead_mem (p : Port) : (s.ioRead p).2.mem = s.mem := by simp [State.ioRead]
@[simp] theorem ioRead_params (p : Port) : (s.ioRead p).2.params = s.params := by simp [State.ioRead]
@[simp] theorem ioRead_pins (p : Port) : (s.ioRead p).2.pins = s.pins := by simp [State.ioRead]
@[simp] theorem ioRead_schedule (p : Port) : (s.ioRead p).2.schedule = s.schedule := by simp [State.ioRead]

@[simp] theorem memWrite_r0 (a : Addr) (v : Byte) : (s.memWrite a v).r0 = s.r0 := by unfold State.memWrite; split <;> rfl
@[simp] theorem memWrite_bank0 (a : Addr) (v : Byte) : (s.memWrite a v).bank0 = s.bank0 := by unfold State.memWrite; split <;> rfl
@[simp] theorem memWrite_bank1 (a : Addr) (v : Byte) : (s.memWrite a v).bank1 = s.bank1 := by unfold State.memWrite; split <;> rfl
@[simp] theorem memWrite_pc (a : Addr) (v : Byte) : (s.memWrite a v).pc = s.pc := by unfold State.memWrite; split <;> rfl
@[simp] theorem memWrite_psu (a : Addr) (v : Byte) : (s.memWrite a v).psu = s.psu := by unfold State.memWrite; split <;> rfl
@[simp] theorem memWrite_psl (a : Addr) (v : Byte) : (s.memWrite a v).psl = s.psl := by unfold State.memWrite; split <;> rfl
@[simp] theorem memWrite_ras (a : Addr) (v : Byte) : (s.memWrite a v).ras = s.ras := by unfold State.memWrite; split <;> rfl
@[simp] theorem memWrite_waiting (a : Addr) (v : Byte) : (s.memWrite a v).waiting = s.waiting := by unfold State.memWrite; split <;> rfl
@[simp] theorem memWrite_params (a : Addr) (v : Byte) : (s.memWrite a v).params = s.params := by unfold State.memWrite; split <;> rfl
@[simp] theorem memWrite_pins (a : Addr) (v : Byte) : (s.memWrite a v).pins = s.pins := by unfold State.memWrite; split <;> rfl
@[simp] theorem memWrite_schedule (a : Addr) (v : Byte) : (s.memWrite a v).schedule = s.schedule := by unfold State.memWrite; split <;> rfl
@[simp] theorem memWrite_inputs (a : Addr) (v : Byte) : (s.memWrite a v).inputs = s.inputs := by unfold State.memWrite; split <;> rfl
@[simp] theorem memWrite_freeCount (a : Addr) (v : Byte) : (s.memWrite a v).freeCount = s.freeCount := by unfold State.memWrite; split <;> rfl

@[simp] theorem indirect_r0 (p : Addr) : (s.indirect p).2.r0 = s.r0 := by simp [State.indirect]
@[simp] theorem indirect_bank0 (p : Addr) : (s.indirect p).2.bank0 = s.bank0 := by simp [State.indirect]
@[simp] theorem indirect_bank1 (p : Addr) : (s.indirect p).2.bank1 = s.bank1 := by simp [State.indirect]
@[simp] theorem indirect_pc (p : Addr) : (s.indirect p).2.pc = s.pc := by simp [State.indirect]
@[simp] theorem indirect_psu (p : Addr) : (s.indirect p).2.psu = s.psu := by simp [State.indirect]
@[simp] theorem indirect_psl (p : Addr) : (s.indirect p).2.psl = s.psl := by simp [State.indirect]
@[simp] theorem indirect_ras (p : Addr) : (s.indirect p).2.ras = s.ras := by simp [State.indirect]
@[simp] theorem indirect_waiting (p : Addr) : (s.indirect p).2.waiting = s.waiting := by simp [State.indirect]
@[simp] theorem indirect_mem (p : Addr) : (s.indirect p).2.mem = s.mem := by simp [State.indirect]
@[simp] theorem indirect_params (p : Addr) : (s.indirect p).2.params = s.params := by simp [State.indirect]
@[simp] theorem indirect_pins (p : Addr) : (s.indirect p).2.pins = s.pins := by simp [State.indirect]
@[simp] theorem indirect_schedule (p : Addr) : (s.indirect p).2.schedule = s.schedule := by simp [State.indirect]

@[simp] theorem indirectIf_r0 (f : Bool) (a : Addr) : (s.indirectIf f a).2.r0 = s.r0 := by unfold State.indirectIf; split <;> simp
@[simp] theorem indirectIf_bank0 (f : Bool) (a : Addr) : (s.indirectIf f a).2.bank0 = s.bank0 := by unfold State.indirectIf; split <;> simp
@[simp] theorem indirectIf_bank1 (f : Bool) (a : Addr) : (s.indirectIf f a).2.bank1 = s.bank1 := by unfold State.indirectIf; split <;> simp
@[simp] theorem indirectIf_pc (f : Bool) (a : Addr) : (s.indirectIf f a).2.pc = s.pc := by unfold State.indirectIf; split <;> simp
@[simp] theorem indirectIf_psu (f : Bool) (a : Addr) : (s.indirectIf f a).2.psu = s.psu := by unfold State.indirectIf; split <;> simp
@[simp] theorem indirectIf_psl (f : Bool) (a : Addr) : (s.indirectIf f a).2.psl = s.psl := by unfold State.indirectIf; split <;> simp
@[simp] theorem indirectIf_ras (f : Bool) (a : Addr) : (s.indirectIf f a).2.ras = s.ras := by unfold State.indirectIf; split <;> simp
@[simp] theorem indirectIf_waiting (f : Bool) (a : Addr) : (s.indirectIf f a).2.waiting = s.waiting := by unfold State.indirectIf; split <;> simp
@[simp] theorem indirectIf_mem (f : Bool) (a : Addr) : (s.indirectIf f a).2.mem = s.mem := by unfold State.indirectIf; split <;> simp
@[simp] theorem indirectIf_params (f : Bool) (a : Addr) : (s.indirectIf f a).2.params = s.params := by unfold State.indirectIf; split <;> simp
@[simp] theorem indirectIf_pins (f : Bool) (a : Addr) : (s.indirectIf f a).2.pins = s.pins := by unfold State.indirectIf; split <;> simp
@[simp] theorem indirectIf_schedule (f : Bool) (a : Addr) : (s.indirectIf f a).2.schedule = s.schedule := by unfold State.indirectIf; split <;> simp

@[simp] theorem zeroRelEA_r0 (l : RelOperand) : (s.zeroRelEA l).2.r0 = s.r0 := by simp [State.zeroRelEA]
@[simp] theorem zeroRelEA_bank0 (l : RelOperand) : (s.zeroRelEA l).2.bank0 = s.bank0 := by simp [State.zeroRelEA]
@[simp] theorem zeroRelEA_bank1 (l : RelOperand) : (s.zeroRelEA l).2.bank1 = s.bank1 := by simp [State.zeroRelEA]
@[simp] theorem zeroRelEA_pc (l : RelOperand) : (s.zeroRelEA l).2.pc = s.pc := by simp [State.zeroRelEA]
@[simp] theorem zeroRelEA_psu (l : RelOperand) : (s.zeroRelEA l).2.psu = s.psu := by simp [State.zeroRelEA]
@[simp] theorem zeroRelEA_psl (l : RelOperand) : (s.zeroRelEA l).2.psl = s.psl := by simp [State.zeroRelEA]
@[simp] theorem zeroRelEA_ras (l : RelOperand) : (s.zeroRelEA l).2.ras = s.ras := by simp [State.zeroRelEA]
@[simp] theorem zeroRelEA_waiting (l : RelOperand) : (s.zeroRelEA l).2.waiting = s.waiting := by simp [State.zeroRelEA]
@[simp] theorem zeroRelEA_mem (l : RelOperand) : (s.zeroRelEA l).2.mem = s.mem := by simp [State.zeroRelEA]
@[simp] theorem zeroRelEA_params (l : RelOperand) : (s.zeroRelEA l).2.params = s.params := by simp [State.zeroRelEA]
@[simp] theorem zeroRelEA_pins (l : RelOperand) : (s.zeroRelEA l).2.pins = s.pins := by simp [State.zeroRelEA]
@[simp] theorem zeroRelEA_schedule (l : RelOperand) : (s.zeroRelEA l).2.schedule = s.schedule := by simp [State.zeroRelEA]

@[simp] theorem relEA_r0 (l : RelOperand) : (s.relEA l).2.r0 = s.r0 := by simp [State.relEA]
@[simp] theorem relEA_bank0 (l : RelOperand) : (s.relEA l).2.bank0 = s.bank0 := by simp [State.relEA]
@[simp] theorem relEA_bank1 (l : RelOperand) : (s.relEA l).2.bank1 = s.bank1 := by simp [State.relEA]
@[simp] theorem relEA_pc (l : RelOperand) : (s.relEA l).2.pc = s.pc := by simp [State.relEA]
@[simp] theorem relEA_psu (l : RelOperand) : (s.relEA l).2.psu = s.psu := by simp [State.relEA]
@[simp] theorem relEA_psl (l : RelOperand) : (s.relEA l).2.psl = s.psl := by simp [State.relEA]
@[simp] theorem relEA_ras (l : RelOperand) : (s.relEA l).2.ras = s.ras := by simp [State.relEA]
@[simp] theorem relEA_waiting (l : RelOperand) : (s.relEA l).2.waiting = s.waiting := by simp [State.relEA]
@[simp] theorem relEA_mem (l : RelOperand) : (s.relEA l).2.mem = s.mem := by simp [State.relEA]
@[simp] theorem relEA_params (l : RelOperand) : (s.relEA l).2.params = s.params := by simp [State.relEA]
@[simp] theorem relEA_pins (l : RelOperand) : (s.relEA l).2.pins = s.pins := by simp [State.relEA]
@[simp] theorem relEA_schedule (l : RelOperand) : (s.relEA l).2.schedule = s.schedule := by simp [State.relEA]

@[simp] theorem branchAbsEA_r0 (b : BranchOperand) : (s.branchAbsEA b).2.r0 = s.r0 := by simp [State.branchAbsEA]
@[simp] theorem branchAbsEA_bank0 (b : BranchOperand) : (s.branchAbsEA b).2.bank0 = s.bank0 := by simp [State.branchAbsEA]
@[simp] theorem branchAbsEA_bank1 (b : BranchOperand) : (s.branchAbsEA b).2.bank1 = s.bank1 := by simp [State.branchAbsEA]
@[simp] theorem branchAbsEA_pc (b : BranchOperand) : (s.branchAbsEA b).2.pc = s.pc := by simp [State.branchAbsEA]
@[simp] theorem branchAbsEA_psu (b : BranchOperand) : (s.branchAbsEA b).2.psu = s.psu := by simp [State.branchAbsEA]
@[simp] theorem branchAbsEA_psl (b : BranchOperand) : (s.branchAbsEA b).2.psl = s.psl := by simp [State.branchAbsEA]
@[simp] theorem branchAbsEA_ras (b : BranchOperand) : (s.branchAbsEA b).2.ras = s.ras := by simp [State.branchAbsEA]
@[simp] theorem branchAbsEA_waiting (b : BranchOperand) : (s.branchAbsEA b).2.waiting = s.waiting := by simp [State.branchAbsEA]
@[simp] theorem branchAbsEA_mem (b : BranchOperand) : (s.branchAbsEA b).2.mem = s.mem := by simp [State.branchAbsEA]
@[simp] theorem branchAbsEA_params (b : BranchOperand) : (s.branchAbsEA b).2.params = s.params := by simp [State.branchAbsEA]
@[simp] theorem branchAbsEA_pins (b : BranchOperand) : (s.branchAbsEA b).2.pins = s.pins := by simp [State.branchAbsEA]
@[simp] theorem branchAbsEA_schedule (b : BranchOperand) : (s.branchAbsEA b).2.schedule = s.schedule := by simp [State.branchAbsEA]

@[simp] theorem indexedBranchEA_r0 (b : BranchOperand) : (s.indexedBranchEA b).2.r0 = s.r0 := by simp [State.indexedBranchEA]
@[simp] theorem indexedBranchEA_bank0 (b : BranchOperand) : (s.indexedBranchEA b).2.bank0 = s.bank0 := by simp [State.indexedBranchEA]
@[simp] theorem indexedBranchEA_bank1 (b : BranchOperand) : (s.indexedBranchEA b).2.bank1 = s.bank1 := by simp [State.indexedBranchEA]
@[simp] theorem indexedBranchEA_pc (b : BranchOperand) : (s.indexedBranchEA b).2.pc = s.pc := by simp [State.indexedBranchEA]
@[simp] theorem indexedBranchEA_psu (b : BranchOperand) : (s.indexedBranchEA b).2.psu = s.psu := by simp [State.indexedBranchEA]
@[simp] theorem indexedBranchEA_psl (b : BranchOperand) : (s.indexedBranchEA b).2.psl = s.psl := by simp [State.indexedBranchEA]
@[simp] theorem indexedBranchEA_ras (b : BranchOperand) : (s.indexedBranchEA b).2.ras = s.ras := by simp [State.indexedBranchEA]
@[simp] theorem indexedBranchEA_waiting (b : BranchOperand) : (s.indexedBranchEA b).2.waiting = s.waiting := by simp [State.indexedBranchEA]
@[simp] theorem indexedBranchEA_mem (b : BranchOperand) : (s.indexedBranchEA b).2.mem = s.mem := by simp [State.indexedBranchEA]
@[simp] theorem indexedBranchEA_params (b : BranchOperand) : (s.indexedBranchEA b).2.params = s.params := by simp [State.indexedBranchEA]
@[simp] theorem indexedBranchEA_pins (b : BranchOperand) : (s.indexedBranchEA b).2.pins = s.pins := by simp [State.indexedBranchEA]
@[simp] theorem indexedBranchEA_schedule (b : BranchOperand) : (s.indexedBranchEA b).2.schedule = s.schedule := by simp [State.indexedBranchEA]

@[simp] theorem stepIndex_pc (r : Reg) (x : IndexControl) : (s.stepIndex r x).pc = s.pc := by cases x <;> rfl
@[simp] theorem stepIndex_psu (r : Reg) (x : IndexControl) : (s.stepIndex r x).psu = s.psu := by cases x <;> rfl
@[simp] theorem stepIndex_psl (r : Reg) (x : IndexControl) : (s.stepIndex r x).psl = s.psl := by cases x <;> rfl
@[simp] theorem stepIndex_ras (r : Reg) (x : IndexControl) : (s.stepIndex r x).ras = s.ras := by cases x <;> rfl
@[simp] theorem stepIndex_waiting (r : Reg) (x : IndexControl) : (s.stepIndex r x).waiting = s.waiting := by cases x <;> rfl
@[simp] theorem stepIndex_mem (r : Reg) (x : IndexControl) : (s.stepIndex r x).mem = s.mem := by cases x <;> rfl
@[simp] theorem stepIndex_params (r : Reg) (x : IndexControl) : (s.stepIndex r x).params = s.params := by cases x <;> rfl
@[simp] theorem stepIndex_pins (r : Reg) (x : IndexControl) : (s.stepIndex r x).pins = s.pins := by cases x <;> rfl
@[simp] theorem stepIndex_schedule (r : Reg) (x : IndexControl) : (s.stepIndex r x).schedule = s.schedule := by cases x <;> rfl
@[simp] theorem stepIndex_inputs (r : Reg) (x : IndexControl) : (s.stepIndex r x).inputs = s.inputs := by cases x <;> rfl
@[simp] theorem stepIndex_freeCount (r : Reg) (x : IndexControl) : (s.stepIndex r x).freeCount = s.freeCount := by cases x <;> rfl
@[simp] theorem stepIndex_events (r : Reg) (x : IndexControl) : (s.stepIndex r x).events = s.events := by cases x <;> rfl

@[simp] theorem absEA_pc (r : Reg) (a : AbsOperand) : (s.absEA r a).s.pc = s.pc := by rw [absEA_s]; simp
@[simp] theorem absEA_psu (r : Reg) (a : AbsOperand) : (s.absEA r a).s.psu = s.psu := by rw [absEA_s]; simp
@[simp] theorem absEA_psl (r : Reg) (a : AbsOperand) : (s.absEA r a).s.psl = s.psl := by rw [absEA_s]; simp
@[simp] theorem absEA_ras (r : Reg) (a : AbsOperand) : (s.absEA r a).s.ras = s.ras := by rw [absEA_s]; simp
@[simp] theorem absEA_waiting (r : Reg) (a : AbsOperand) : (s.absEA r a).s.waiting = s.waiting := by rw [absEA_s]; simp
@[simp] theorem absEA_mem (r : Reg) (a : AbsOperand) : (s.absEA r a).s.mem = s.mem := by rw [absEA_s]; simp
@[simp] theorem absEA_params (r : Reg) (a : AbsOperand) : (s.absEA r a).s.params = s.params := by rw [absEA_s]; simp
@[simp] theorem absEA_pins (r : Reg) (a : AbsOperand) : (s.absEA r a).s.pins = s.pins := by rw [absEA_s]; simp
@[simp] theorem absEA_schedule (r : Reg) (a : AbsOperand) : (s.absEA r a).s.schedule = s.schedule := by rw [absEA_s]; simp

@[simp] theorem operandR_r0 (r : Reg) (l : RelOperand) : (s.operandR r l).s.r0 = s.r0 := by simp [State.operandR]
@[simp] theorem operandR_bank0 (r : Reg) (l : RelOperand) : (s.operandR r l).s.bank0 = s.bank0 := by simp [State.operandR]
@[simp] theorem operandR_bank1 (r : Reg) (l : RelOperand) : (s.operandR r l).s.bank1 = s.bank1 := by simp [State.operandR]
@[simp] theorem operandR_pc (r : Reg) (l : RelOperand) : (s.operandR r l).s.pc = s.pc := by simp [State.operandR]
@[simp] theorem operandR_psu (r : Reg) (l : RelOperand) : (s.operandR r l).s.psu = s.psu := by simp [State.operandR]
@[simp] theorem operandR_psl (r : Reg) (l : RelOperand) : (s.operandR r l).s.psl = s.psl := by simp [State.operandR]
@[simp] theorem operandR_ras (r : Reg) (l : RelOperand) : (s.operandR r l).s.ras = s.ras := by simp [State.operandR]
@[simp] theorem operandR_waiting (r : Reg) (l : RelOperand) : (s.operandR r l).s.waiting = s.waiting := by simp [State.operandR]
@[simp] theorem operandR_mem (r : Reg) (l : RelOperand) : (s.operandR r l).s.mem = s.mem := by simp [State.operandR]
@[simp] theorem operandR_params (r : Reg) (l : RelOperand) : (s.operandR r l).s.params = s.params := by simp [State.operandR]
@[simp] theorem operandR_pins (r : Reg) (l : RelOperand) : (s.operandR r l).s.pins = s.pins := by simp [State.operandR]
@[simp] theorem operandR_schedule (r : Reg) (l : RelOperand) : (s.operandR r l).s.schedule = s.schedule := by simp [State.operandR]

@[simp] theorem operandA_pc (r : Reg) (a : AbsOperand) : (s.operandA r a).s.pc = s.pc := by simp [State.operandA]
@[simp] theorem operandA_psu (r : Reg) (a : AbsOperand) : (s.operandA r a).s.psu = s.psu := by simp [State.operandA]
@[simp] theorem operandA_psl (r : Reg) (a : AbsOperand) : (s.operandA r a).s.psl = s.psl := by simp [State.operandA]
@[simp] theorem operandA_ras (r : Reg) (a : AbsOperand) : (s.operandA r a).s.ras = s.ras := by simp [State.operandA]
@[simp] theorem operandA_waiting (r : Reg) (a : AbsOperand) : (s.operandA r a).s.waiting = s.waiting := by simp [State.operandA]
@[simp] theorem operandA_mem (r : Reg) (a : AbsOperand) : (s.operandA r a).s.mem = s.mem := by simp [State.operandA]
@[simp] theorem operandA_params (r : Reg) (a : AbsOperand) : (s.operandA r a).s.params = s.params := by simp [State.operandA]
@[simp] theorem operandA_pins (r : Reg) (a : AbsOperand) : (s.operandA r a).s.pins = s.pins := by simp [State.operandA]
@[simp] theorem operandA_schedule (r : Reg) (a : AbsOperand) : (s.operandA r a).s.schedule = s.schedule := by simp [State.operandA]

@[simp] theorem interruptEntry_r0 : s.interruptEntry.r0 = s.r0 := by simp [State.interruptEntry]
@[simp] theorem interruptEntry_bank0 : s.interruptEntry.bank0 = s.bank0 := by simp [State.interruptEntry]
@[simp] theorem interruptEntry_bank1 : s.interruptEntry.bank1 = s.bank1 := by simp [State.interruptEntry]
@[simp] theorem interruptEntry_psl : s.interruptEntry.psl = s.psl := by simp [State.interruptEntry]
@[simp] theorem interruptEntry_mem : s.interruptEntry.mem = s.mem := by simp [State.interruptEntry]
@[simp] theorem interruptEntry_params : s.interruptEntry.params = s.params := by simp [State.interruptEntry]
@[simp] theorem interruptEntry_pins : s.interruptEntry.pins = s.pins := by simp [State.interruptEntry]
@[simp] theorem interruptEntry_schedule : s.interruptEntry.schedule = s.schedule := by simp [State.interruptEntry]

@[simp] theorem interruptEntry_waiting : s.interruptEntry.waiting = false := by simp [State.interruptEntry]

end Sys2Proof.Machine
end

