-- ==== Sys2Proof/Laws/Bits.lean ====
section
/-! SUPPORT. Bit fields: what the writers of a status byte do to each bit, and page arithmetic as numbers. -/

namespace Sys2Proof.Machine

/-- What writing one bit does to every bit. -/
theorem getLsbD_setBit (v : Byte) (k : Nat) (hk : k < 8) (b : Bool) (j : Nat) :
    (setBit v k b).getLsbD j = if j = k then b else v.getLsbD j := by
  have hone : ∀ j, (1#8 <<< k).getLsbD j = decide (j = k) := by
    intro j
    rw [BitVec.getLsbD_shiftLeft]
    by_cases h : j = k
    · subst h; simp [hk]
    · rcases Nat.lt_or_ge j k with h' | h'
      · simp [h', h]
      · have : j - k ≠ 0 := by omega
        simp [h, this]
  unfold setBit
  by_cases hj : j = k
  · subst hj
    cases b <;> simp only [if_true, Bool.false_eq_true, if_false, BitVec.getLsbD_or, BitVec.getLsbD_and,
      BitVec.getLsbD_not, hone, hk, decide_true, Bool.or_true, Bool.not_true, Bool.and_false]
  · by_cases h8 : j < 8
    · cases b <;> simp only [if_true, Bool.false_eq_true, if_false, BitVec.getLsbD_or, BitVec.getLsbD_and,
        BitVec.getLsbD_not, hone, hj, h8, decide_true, decide_false, Bool.or_false, Bool.not_false, Bool.and_true]
    · have hz : ∀ x : Byte, x.getLsbD j = false := fun x => BitVec.getLsbD_of_ge x j (by omega)
      rw [hz, if_neg hj, hz]

/-- What writing CC does to every bit of PSL (R39). -/
theorem getLsbD_withCC (psl : Byte) (cc : Cond) (j : Nat) :
    (withCC psl cc).getLsbD j = if j < 6 then psl.getLsbD j else cc.getLsbD (j - 6) := by
  unfold withCC
  rw [BitVec.getLsbD_append]
  by_cases h : j < 6 <;> simp [h]

@[simp] theorem pslCC_withCC (psl : Byte) (cc : Cond) : pslCC (withCC psl cc) = cc := by
  apply BitVec.eq_of_getLsbD_eq
  intro j hj
  simp [pslCC, getLsbD_withCC, hj]

@[simp] theorem pslRS_withCC (psl : Byte) (cc : Cond) : pslRS (withCC psl cc) = pslRS psl := by
  simp only [pslRS, getLsbD_withCC, Nat.reduceLT, if_true]

/-- The sum flags leave RS, WC and COM alone (R142, R143). -/
theorem sumFlags_control (psl v : Byte) (c idc ovf : Bool) :
    pslRS (sumFlags psl v c idc ovf) = pslRS psl ∧ pslWC (sumFlags psl v c idc ovf) = pslWC psl ∧
      pslCOM (sumFlags psl v c idc ovf) = pslCOM psl := by
  refine ⟨?_, ?_, ?_⟩ <;>
    simp only [sumFlags, pslRS, pslWC, pslCOM, getLsbD_withCC, withC, withIDC, withOVF,
      getLsbD_setBit _ _ (by decide : 0 < 8), getLsbD_setBit _ _ (by decide : 5 < 8),
      getLsbD_setBit _ _ (by decide : 2 < 8), Nat.reduceLT, Nat.reduceEqDiff, reduceIte, OfNat.ofNat_ne_zero, one_ne_zero,
      OfNat.one_ne_ofNat]

/-- The sum flags write each flag with its value (R142, R143). -/
theorem sumFlags_flags (psl v : Byte) (c idc ovf : Bool) :
    pslC (sumFlags psl v c idc ovf) = c ∧ pslIDC (sumFlags psl v c idc ovf) = idc ∧
      pslOVF (sumFlags psl v c idc ovf) = ovf ∧ pslCC (sumFlags psl v c idc ovf) = ccOf v := by
  refine ⟨?_, ?_, ?_, ?_⟩ <;>
    simp only [sumFlags, pslC, pslIDC, pslOVF, pslCC_withCC, getLsbD_withCC, withC, withIDC, withOVF,
      getLsbD_setBit _ _ (by decide : 0 < 8), getLsbD_setBit _ _ (by decide : 5 < 8),
      getLsbD_setBit _ _ (by decide : 2 < 8), Nat.reduceLT, Nat.reduceEqDiff, reduceIte, OfNat.ofNat_ne_zero]

/-- What writing SP does to every bit of PSU (R35). -/
theorem getLsbD_withSP (psu : Byte) (sp : BitVec 3) (j : Nat) :
    (withSP psu sp).getLsbD j = if j < 3 then sp.getLsbD j else psu.getLsbD j := by
  unfold withSP
  rw [BitVec.getLsbD_append]
  by_cases h : j < 3
  · simp [h]
  · rcases Nat.lt_or_ge j 8 with h' | h'
    · have : j - 3 < 5 := by omega
      have e : 3 + (j - 3) = j := by omega
      simp [h, this, e]
    · have : ¬ j - 3 < 5 := by omega
      simp [h, this, BitVec.getLsbD_of_ge, h']

@[simp] theorem psuSP_withSP (psu : Byte) (sp : BitVec 3) : psuSP (withSP psu sp) = sp := by
  apply BitVec.eq_of_getLsbD_eq
  intro j hj
  simp [psuSP, getLsbD_withSP, hj]

@[simp] theorem psuII_withII (psu : Byte) (b : Bool) : psuII (withII psu b) = b := by
  simp only [psuII, withII, getLsbD_setBit _ _ (by decide : 5 < 8), if_true]

@[simp] theorem psuII_withSP (psu : Byte) (sp : BitVec 3) : psuII (withSP psu sp) = psuII psu := by
  simp only [psuII, getLsbD_withSP, Nat.reduceLT, if_false]

@[simp] theorem psuSP_withII (psu : Byte) (b : Bool) : psuSP (withII psu b) = psuSP psu := by
  apply BitVec.eq_of_getLsbD_eq
  intro j hj
  have : j ≠ 5 := by omega
  simp [psuSP, withII, getLsbD_setBit, this]

/-- An in-page step as a number: the page stays, the low 13 bits wrap (R28). -/
theorem inpage_toNat (a : Addr) (k : BitVec 13) :
    (inpage a k).toNat = a.toNat / 8192 * 8192 + (a.toNat % 8192 + k.toNat) % 8192 := by
  have ha := a.isLt
  simp only [inpage, BitVec.toNat_append, BitVec.toNat_add, BitVec.extractLsb'_toNat, Nat.shiftRight_eq_div_pow]
  rw [← Nat.shiftLeft_add_eq_or_of_lt (by omega), Nat.shiftLeft_eq]
  omega

/-- The address in the page of `a` as a number (R107). -/
theorem samePage_toNat (a : Addr) (off : BitVec 13) :
    (samePage a off).toNat = a.toNat / 8192 * 8192 + off.toNat := by
  have ha := a.isLt
  have ho := off.isLt
  simp only [samePage, BitVec.toNat_append, BitVec.extractLsb'_toNat, Nat.shiftRight_eq_div_pow]
  rw [← Nat.shiftLeft_add_eq_or_of_lt (by omega), Nat.shiftLeft_eq]
  omega

/-- A pointer as a number: bit 7 of the high byte is dropped (R101). -/
theorem pointerAddr_toNat (hi lo : Byte) : (pointerAddr hi lo).toNat = hi.toNat % 128 * 256 + lo.toNat := by
  have hl := lo.isLt
  simp only [pointerAddr, BitVec.toNat_append, BitVec.extractLsb'_toNat, Nat.shiftRight_eq_div_pow]
  rw [← Nat.shiftLeft_add_eq_or_of_lt (by omega), Nat.shiftLeft_eq]
  omega

/-- The next instruction's address as a number (R28). -/
theorem nextAddr_toNat (s : State) (n : Nat) :
    (s.nextAddr n).toNat = s.pc.toNat / 8192 * 8192 + (s.pc.toNat % 8192 + n) % 8192 := by
  rw [State.nextAddr, inpage_toNat, BitVec.toNat_ofNat]
  omega

end Sys2Proof.Machine
end

