-- ==== Sys2Proof/Laws/Memory.lean ====
section
/-! SUPPORT. Memory: a read after a write, and the canonical form that every write keeps. -/

namespace Sys2Proof.Machine

@[simp] theorem Memory.read_nil (a : Nat) : Memory.read [] a = Config.unwritten := rfl

theorem Memory.read_cons (k : Nat) (w : Byte) (m : Memory) (a : Nat) :
    Memory.read ((k, w) :: m) a = if k = a then w else Memory.read m a := rfl

/-- An address below every listed one is not listed. -/
theorem Memory.read_below {m : Memory} {a : Nat} (h : ∀ c ∈ m, a < c.1) : Memory.read m a = Config.unwritten := by
  induction m with
  | nil => rfl
  | cons c m ih =>
    obtain ⟨k, w⟩ := c
    rw [Memory.read_cons, if_neg (Nat.ne_of_gt (h (k, w) (by simp)))]
    exact ih fun c hc => h c (by simp [hc])

theorem Memory.read_consCell {m : Memory} {a : Nat} (v : Byte) (h : ∀ c ∈ m, a < c.1) :
    Memory.read (Memory.consCell a v m) a = v := by
  unfold Memory.consCell
  split
  · rw [Memory.read_below h]; exact Eq.symm ‹_›
  · simp [Memory.read_cons]

theorem Memory.read_consCell_other (m : Memory) {a b : Nat} (v : Byte) (h : a ≠ b) :
    Memory.read (Memory.consCell a v m) b = Memory.read m b := by
  unfold Memory.consCell
  split
  · rfl
  · simp [Memory.read_cons, h]

/-- A write leaves every other address as it was, in any list. -/
theorem Memory.read_write_other (m : Memory) {a b : Nat} (v : Byte) (h : a ≠ b) :
    Memory.read (Memory.write m a v) b = Memory.read m b := by
  induction m with
  | nil => exact Memory.read_consCell_other [] v h
  | cons c m ih =>
    obtain ⟨k, w⟩ := c
    unfold Memory.write
    split
    · exact Memory.read_consCell_other _ v h
    · split
      · subst a
        rw [Memory.read_consCell_other _ v h, Memory.read_cons, if_neg h]
      · rw [Memory.read_cons, Memory.read_cons, ih]

theorem Memory.wf_tail {c : Host.Cell} {m : Memory} (h : Memory.wf (c :: m)) : Memory.wf m :=
  ⟨(List.pairwise_cons.mp h.1).2, fun d hd => h.2 d (by simp [hd])⟩

theorem Memory.wf_head {c : Host.Cell} {m : Memory} (h : Memory.wf (c :: m)) : ∀ d ∈ m, c.1 < d.1 :=
  (List.pairwise_cons.mp h.1).1

/-- In canonical form a write is read back. -/
theorem Memory.read_write_same {m : Memory} (h : Memory.wf m) (a : Nat) (v : Byte) :
    Memory.read (Memory.write m a v) a = v := by
  induction m with
  | nil => exact Memory.read_consCell v (by simp)
  | cons c m ih =>
    obtain ⟨k, w⟩ := c
    have hk := Memory.wf_head h
    unfold Memory.write
    split
    · refine Memory.read_consCell v fun d hd => ?_
      rcases List.mem_cons.mp hd with rfl | hd
      · assumption
      · exact Nat.lt_trans ‹_› (hk d hd)
    · split
      · subst a; exact Memory.read_consCell v hk
      · rw [Memory.read_cons, if_neg (Ne.symm ‹_›), ih (Memory.wf_tail h)]

theorem Memory.wf_nil : Memory.wf [] := ⟨List.Pairwise.nil, by simp⟩

theorem Memory.wf_cons {a : Nat} {v : Byte} {m : Memory} (hm : Memory.wf m) (ha : a < 32768)
    (hv : v ≠ Config.unwritten) (hl : ∀ c ∈ m, a < c.1) : Memory.wf ((a, v) :: m) := by
  refine ⟨List.pairwise_cons.mpr ⟨hl, hm.1⟩, fun c hc => ?_⟩
  rcases List.mem_cons.mp hc with rfl | hc
  · exact ⟨ha, hv⟩
  · exact hm.2 c hc

theorem Memory.wf_consCell {a : Nat} {m : Memory} (v : Byte) (hm : Memory.wf m) (ha : a < 32768)
    (hl : ∀ c ∈ m, a < c.1) : Memory.wf (Memory.consCell a v m) := by
  unfold Memory.consCell
  split
  · exact hm
  · exact Memory.wf_cons hm ha ‹_› hl

/-- A cell of the written memory is the new one or an old one. -/
theorem Memory.mem_write {m : Memory} {a : Nat} {v : Byte} {c : Host.Cell} (h : c ∈ Memory.write m a v) :
    c = (a, v) ∨ c ∈ m := by
  have hcons : ∀ m' : Memory, c ∈ Memory.consCell a v m' → c = (a, v) ∨ c ∈ m' := by
    intro m' h
    unfold Memory.consCell at h
    split at h
    · exact .inr h
    · exact List.mem_cons.mp h
  induction m with
  | nil => exact hcons [] h
  | cons d m ih =>
    obtain ⟨k, w⟩ := d
    unfold Memory.write at h
    split at h
    · exact hcons _ h
    · split at h
      · rcases hcons m h with h | h
        · exact .inl h
        · exact .inr (by simp [h])
      · rcases List.mem_cons.mp h with rfl | h
        · exact .inr (by simp)
        · rcases ih h with h | h
          · exact .inl h
          · exact .inr (by simp [h])

/-- Every write keeps the canonical form. -/
theorem Memory.wf_write {m : Memory} (h : Memory.wf m) {a : Nat} (ha : a < 32768) (v : Byte) :
    Memory.wf (Memory.write m a v) := by
  induction m with
  | nil => exact Memory.wf_consCell v h ha (by simp)
  | cons c m ih =>
    obtain ⟨k, w⟩ := c
    have hk := Memory.wf_head h
    unfold Memory.write
    split
    · refine Memory.wf_consCell v h ha fun d hd => ?_
      rcases List.mem_cons.mp hd with rfl | hd
      · assumption
      · exact Nat.lt_trans ‹_› (hk d hd)
    · split
      · subst a; exact Memory.wf_consCell v (Memory.wf_tail h) ha hk
      · refine Memory.wf_cons (ih (Memory.wf_tail h)) (h.2 (k, w) (by simp)).1 (h.2 (k, w) (by simp)).2 fun d hd => ?_
        rcases Memory.mem_write hd with rfl | hd
        · simp only; omega
        · exact hk d hd

/-- A store of the machine keeps the canonical form, whatever the address is (R63). -/
theorem memWrite_wf {s : State} (h : Memory.wf s.mem) (a : Addr) (v : Byte) : Memory.wf (s.memWrite a v).mem := by
  unfold State.memWrite
  split
  · exact Memory.wf_write h a.isLt v
  all_goals exact h

/-- Memory after reset is in canonical form. -/
theorem reset_mem_wf : Memory.wf State.reset.mem := Memory.wf_nil

/-- What a store can do, once: RAM takes the byte, a device is told, ROM and empty addresses ignore it (R63). -/
theorem memWrite_cases (s : State) (a : Addr) (v : Byte) :
    (s.kindAt a = .ram ∧ s.memWrite a v = { s with mem := s.mem.write a.toNat v }) ∨
    (s.kindAt a = .device ∧ s.memWrite a v = s.record (.deviceWrite a v)) ∨
    ((s.kindAt a = .rom ∨ s.kindAt a = .empty) ∧ s.memWrite a v = s) := by
  unfold State.memWrite
  cases s.kindAt a <;> simp

/-- A store leaves every other byte as it was. -/
theorem peek_memWrite_other (s : State) {a b : Addr} (v : Byte) (h : b ≠ a) : (s.memWrite a v).peek b = s.peek b := by
  have hn : a.toNat ≠ b.toNat := fun e => h (BitVec.eq_of_toNat_eq e.symm)
  rcases memWrite_cases s a v with ⟨-, e⟩ | ⟨-, e⟩ | ⟨-, e⟩ <;> rw [e]
  · exact Memory.read_write_other _ v hn
  · rfl

/-- A store to RAM is read back. -/
theorem peek_memWrite_same {s : State} (h : Memory.wf s.mem) {a : Addr} (v : Byte) (hk : s.kindAt a = .ram) :
    (s.memWrite a v).peek a = v := by
  unfold State.memWrite
  rw [hk]
  exact Memory.read_write_same h _ v

/-- A read of RAM or ROM answers the byte held and leaves the state alone (R62, R67). -/
theorem memRead_plain {s : State} {a : Addr} (h : plainKind (s.kindAt a) = true) : s.memRead a = (s.peek a, s) := by
  unfold State.memRead
  revert h
  cases s.kindAt a <;> simp [plainKind]

/-- What a read can do, once (R62). -/
theorem memRead_cases (s : State) (a : Addr) :
    (plainKind (s.kindAt a) = true ∧ s.memRead a = (s.peek a, s)) ∨
    (s.kindAt a = .device ∧ s.memRead a = (s.inputByte.1, s.inputByte.2.record (.deviceRead a s.inputByte.1))) ∨
    (s.kindAt a = .empty ∧ s.memRead a = (Config.freeByte s.freeCount, { s with freeCount := s.freeCount + 1 })) := by
  unfold State.memRead
  cases s.kindAt a <;> simp [plainKind]

end Sys2Proof.Machine
end

