-- ==== Sys2Proof/Laws/Ops.lean ====
section
/-! SUPPORT. What each shared operation can do, said once: registers, stack, reads, addresses, flags, conditions, the step. -/

namespace Sys2Proof.Machine

/-! Registers. -/

/-- A register's value is fixed by the three fields that hold registers. -/
theorem regAt_congr {s t : State} (h0 : t.r0 = s.r0) (h1 : t.bank0 = s.bank0) (h2 : t.bank1 = s.bank1) (b : Bool) (n : Reg) :
    t.regAt b n = s.regAt b n := by
  simp only [State.regAt, h0, h1, h2]

/-- The same registers seen through the same bank. -/
theorem reg_congr {s t : State} (h0 : t.r0 = s.r0) (h1 : t.bank0 = s.bank0) (h2 : t.bank1 = s.bank1)
    (hp : pslRS t.psl = pslRS s.psl) (n : Reg) : t.reg n = s.reg n := by
  rw [State.reg, State.reg, hp, regAt_congr h0 h1 h2]

/-- What a register write does to every register of either bank (R21, R22, R23). -/
theorem regAt_setReg (s : State) (r : Reg) (v : Byte) (b : Bool) (n : Reg) :
    (s.setReg r v).regAt b n = if n = r ∧ (r = .r0 ∨ b = pslRS s.psl) then v else s.regAt b n := by
  simp only [State.regAt, setReg_r0, setReg_bank0, setReg_bank1]
  cases h : pslRS s.psl <;> cases b <;> cases r <;> cases n <;> rfl

/-- What a register write does to every register of the selected bank (R23). -/
theorem reg_setReg (s : State) (r : Reg) (v : Byte) (n : Reg) :
    (s.setReg r v).reg n = if n = r then v else s.reg n := by
  simp only [State.reg, setReg_psl, regAt_setReg, or_true, and_true]

@[simp] theorem reg_r0 (s : State) : s.reg .r0 = s.r0 := rfl
@[simp] theorem regAt_setPc (s : State) (t : Addr) (b : Bool) (n : Reg) : (s.setPc t).regAt b n = s.regAt b n := rfl
@[simp] theorem regAt_advance (s : State) (k : Nat) (b : Bool) (n : Reg) : (s.advance k).regAt b n = s.regAt b n := rfl
@[simp] theorem regAt_setPsl (s : State) (v : Byte) (b : Bool) (n : Reg) : (s.setPsl v).regAt b n = s.regAt b n := rfl
@[simp] theorem regAt_push (s : State) (v : Addr) (b : Bool) (n : Reg) : (s.push v).regAt b n = s.regAt b n := rfl
@[simp] theorem reg_setPc (s : State) (t : Addr) (n : Reg) : (s.setPc t).reg n = s.reg n := rfl
@[simp] theorem reg_advance (s : State) (k : Nat) (n : Reg) : (s.advance k).reg n = s.reg n := rfl
@[simp] theorem reg_push (s : State) (v : Addr) (n : Reg) : (s.push v).reg n = s.reg n := rfl
@[simp] theorem reg_setPsl (s : State) (v : Byte) (n : Reg) : (s.setPsl v).reg n = s.regAt (pslRS v) n := rfl
@[simp] theorem reg_memRead (s : State) (a : Addr) (n : Reg) : (s.memRead a).2.reg n = s.reg n :=
  reg_congr (by simp) (by simp) (by simp) (by simp) n
@[simp] theorem reg_memWrite (s : State) (a : Addr) (v : Byte) (n : Reg) : (s.memWrite a v).reg n = s.reg n :=
  reg_congr (by simp) (by simp) (by simp) (by simp) n
@[simp] theorem reg_indirectIf (s : State) (f : Bool) (a : Addr) (n : Reg) : (s.indirectIf f a).2.reg n = s.reg n :=
  reg_congr (by simp) (by simp) (by simp) (by simp) n

/-! The return address stack. -/

/-- What a push leaves in every entry of the stack (R51). -/
theorem rasEntry_push (s : State) (v : Addr) (k : BitVec 3) :
    rasEntry (s.push v).ras k = if k = psuSP s.psu then v else rasEntry s.ras k := by
  simp only [rasEntry, State.push, Vector.getElem_set]
  by_cases h : k = psuSP s.psu
  · simp [h]
  · have : (psuSP s.psu).toNat ≠ k.toNat := fun e => h (BitVec.eq_of_toNat_eq e.symm)
    simp [h, this]

/-! Bytes from outside. -/

/-- A byte of the environment is the next it has ready, or a free value (log 8). -/
theorem inputByte_cases (s : State) :
    (∃ b rest, s.inputs = b :: rest ∧ s.inputByte = (b, { s with inputs := rest })) ∨
    (s.inputs = [] ∧ s.inputByte = (Config.freeByte s.freeCount, { s with freeCount := s.freeCount + 1 })) := by
  unfold State.inputByte
  cases h : s.inputs with
  | nil => exact .inr ⟨rfl, rfl⟩
  | cons b rest => exact .inl ⟨b, rest, rfl, rfl⟩

/-- The byte read depends on memory, parameters and traffic alone. -/
theorem memRead_fst_congr {s t : State} (hm : t.mem = s.mem) (hp : t.params = s.params) (hi : t.inputs = s.inputs)
    (hf : t.freeCount = s.freeCount) (a : Addr) : (t.memRead a).1 = (s.memRead a).1 := by
  unfold State.memRead State.kindAt State.peek State.inputByte
  rw [hm, hp, hi, hf]
  cases kindOf s.params.memMap a.toNat <;> cases s.inputs <;> rfl

@[simp] theorem peek_memRead (s : State) (a b : Addr) : (s.memRead a).2.peek b = s.peek b := by
  rw [State.peek, memRead_mem, State.peek]
@[simp] theorem kindAt_memRead (s : State) (a b : Addr) : (s.memRead a).2.kindAt b = s.kindAt b := by
  rw [State.kindAt, memRead_params, State.kindAt]
@[simp] theorem kindAt_setReg (s : State) (r : Reg) (v : Byte) (b : Addr) : (s.setReg r v).kindAt b = s.kindAt b := rfl
@[simp] theorem peek_setReg (s : State) (r : Reg) (v : Byte) (b : Addr) : (s.setReg r v).peek b = s.peek b := rfl

/-- A register write before a read is a register write after it. -/
theorem memRead_setReg (s : State) (r : Reg) (v : Byte) (a : Addr) :
    (s.setReg r v).memRead a = ((s.memRead a).1, (s.memRead a).2.setReg r v) := by
  rcases memRead_cases s a with ⟨h, e⟩ | ⟨h, e⟩ | ⟨h, e⟩
  · rw [e, memRead_plain (show plainKind ((s.setReg r v).kindAt a) = true from h)]; rfl
  · have h' : (s.setReg r v).kindAt a = .device := h
    rw [e]
    rcases inputByte_cases s with ⟨b, rest, hi, eb⟩ | ⟨hi, eb⟩
    · have hi' : (s.setReg r v).inputs = b :: rest := hi
      simp only [State.memRead, h', State.inputByte, hi, hi']; rfl
    · have hi' : (s.setReg r v).inputs = [] := hi
      simp only [State.memRead, h', State.inputByte, hi, hi']; rfl
  · have h' : (s.setReg r v).kindAt a = .empty := h
    rw [e]
    simp only [State.memRead, h']; rfl

/-! Addresses. -/

/-- An address operand points where its direct address or its pointer says (R101). -/
theorem targetIs_indirectIf (s : State) (flag : Bool) (a : Addr) :
    TargetIs s flag a.toNat (s.indirectIf flag a) := by
  have e : BitVec.ofNat 15 a.toNat = a := BitVec.eq_of_toNat_eq (by simp)
  have e1 : BitVec.ofNat 15 (stepInPage a.toNat 1) = inpage a 1 := by
    apply BitVec.eq_of_toNat_eq
    have := a.isLt
    have h1 : (1 : BitVec 13).toNat = 1 := rfl
    rw [inpage_toNat, BitVec.toNat_ofNat, stepInPage, h1]
    omega
  cases flag
  · exact ⟨fun _ => ⟨rfl, rfl⟩, fun h => Bool.noConfusion h⟩
  · refine ⟨fun h => Bool.noConfusion h, fun _ => ?_⟩
    simp only [State.indirectIf, State.indirect, if_true, pointerAddr_toNat, e, e1, and_self]

/-- A signed displacement as a number modulo a page (R10). -/
theorem sext7_toNat (d : BitVec 7) : ((sext7 d).toNat : Int) = d.toInt % 8192 := by
  have h : (sext7 d).toInt = d.toInt := BitVec.toInt_signExtend_of_le (by decide)
  rw [BitVec.toInt_eq_toNat_cond] at h
  have := (sext7 d).isLt
  split at h <;> omega

/-- `inpage` is a step in the page (R28). -/
theorem inpage_eq_stepInPage (a : Addr) (k : BitVec 13) (j : Int) (h : (k.toNat : Int) = j % 8192) :
    (inpage a k).toNat = stepInPage a.toNat j := by
  rw [inpage_toNat, stepInPage]
  omega

/-- The next instruction's address is a step in the page (R28). -/
theorem nextAddr_eq_stepInPage (s : State) (n : Nat) : (s.nextAddr n).toNat = stepInPage s.pc.toNat n :=
  inpage_eq_stepInPage _ _ _ (by rw [BitVec.toNat_ofNat]; omega)

/-! Flags. -/

/-- Two bytes agree outside a mask when they agree on every bit the mask leaves out. -/
theorem masked_eq {x y m : Byte} (h : ∀ k < 8, m.getLsbD k = false → x.getLsbD k = y.getLsbD k) :
    x &&& ~~~m = y &&& ~~~m := by
  apply BitVec.eq_of_getLsbD_eq
  intro k hk
  simp only [BitVec.getLsbD_and, BitVec.getLsbD_not, hk, decide_true, Bool.true_and]
  cases hm : m.getLsbD k
  · simp [h k hk hm]
  · simp

/-- CC after a result says its sign (R40). -/
theorem ccOf_says (v : Byte) : CcSays (ccOf v) v := by
  revert v
  unfold CcSays
  decide

/-- `Add8` in numbers (R142). -/
theorem add8_value (psl a b : Byte) :
    (add8 psl a b).value.toNat = (a.toNat + b.toNat + if pslWC psl && pslC psl then 1 else 0) % 256 := by
  simp [add8]

/-- `Sub8` in numbers (R143). -/
theorem sub8_value (psl a b : Byte) :
    ((sub8 psl a b).value.toNat : Int) =
      ((a.toNat : Int) - b.toNat - if pslWC psl && !pslC psl then 1 else 0) % 256 := by
  have := b.isLt
  simp only [sub8, BitVec.toNat_ofNat, BitVec.toNat_not]
  split <;> omega

/-- `TestMask` in bits (R171). -/
theorem testMask_iff (v m : Byte) : v &&& m = m ↔ AllSelected v m := by
  constructor
  · intro h k _ hm
    rw [← h, BitVec.getLsbD_and, Bool.and_eq_true] at hm
    exact hm.1
  · intro h
    apply BitVec.eq_of_getLsbD_eq
    intro k hk
    rw [BitVec.getLsbD_and]
    cases hm : m.getLsbD k
    · simp
    · simp [h k hk hm]

/-! Conditions. -/

theorem condTrue_iff (s : State) (d : Cond) : s.condTrue d = true ↔ CondHolds s d := by
  unfold State.condTrue CondHolds
  cases s.params.cond3 <;> simp

theorem condFalse_iff (s : State) (d : Cond) : s.condFalse d = true ↔ pslCC s.psl ≠ d := by
  simp [State.condFalse]

/-! The step. -/

/-- What a step can do, once (R355). -/
theorem step_cases (s : State) :
    (s.pins.reset = true ∧ step s = .next s.resetStep.tick) ∨
    (s.pins.reset = false ∧ s.interruptAccepted = true ∧ step s = .next s.interruptEntry.tick) ∨
    (s.pins.reset = false ∧ s.interruptAccepted = false ∧ s.waiting = true ∧ step s = .next s.tick) ∨
    (s.Executes ∧ ∃ op, s.fetch = .reserved op ∧ step s = .fault (.reservedOpcode op)) ∨
    (s.Executes ∧ ∃ i t, s.fetch = .instr i t ∧ step s = tickOutcome (exec i t)) := by
  unfold step State.Executes
  cases hr : s.pins.reset
  · cases ha : s.interruptAccepted
    · cases hw : s.waiting
      · cases hf : s.fetch with
        | reserved op => exact .inr (.inr (.inr (.inl ⟨⟨rfl, rfl, rfl⟩, op, rfl, by simp⟩)))
        | instr i t => exact .inr (.inr (.inr (.inr ⟨⟨rfl, rfl, rfl⟩, i, t, rfl, by simp⟩)))
      · exact .inr (.inr (.inl ⟨rfl, rfl, rfl, by simp⟩))
    · exact .inr (.inl ⟨rfl, rfl, by simp⟩)
  · exact .inl ⟨rfl, by simp⟩

/-- The pins of the next boundary touch nothing else (log 7). -/
theorem tick_cases (s : State) :
    (s.schedule = [] ∧ s.tick = s) ∨
    (∃ p rest, s.schedule = p :: rest ∧ s.tick = { s with pins := p, schedule := rest }) := by
  unfold State.tick
  cases h : s.schedule with
  | nil => exact .inl ⟨rfl, rfl⟩
  | cons p rest => exact .inr ⟨p, rest, rfl, rfl⟩

end Sys2Proof.Machine
end

