-- ==== Sys2Proof/Laws/PerInstr.lean ====
section
/-! SUPPORT. The statements made once per instruction. `EncodeLength`: an instruction is encoded in as many bytes as its operand
letters give it, one to three (R96). -/

namespace Sys2Proof.Laws

/-- The encoder answers the instruction's length in bytes (R96). -/
def EncodeLength.Statement (i : Instr) : Prop :=
  (encode i).length = Machine.instrLength i ∧ 1 ≤ (encode i).length ∧ (encode i).length ≤ 3

theorem EncodeLength.lodz (r : Reg) : EncodeLength.Statement (.lodz r) :=
  ⟨rfl, Nat.le_of_ble_eq_true rfl, Nat.le_of_ble_eq_true rfl⟩

theorem EncodeLength.lodi (r : Reg) (imm : Byte) : EncodeLength.Statement (.lodi r imm) :=
  ⟨rfl, Nat.le_of_ble_eq_true rfl, Nat.le_of_ble_eq_true rfl⟩

theorem EncodeLength.lodr (r : Reg) (l : RelOperand) : EncodeLength.Statement (.lodr r l) :=
  ⟨rfl, Nat.le_of_ble_eq_true rfl, Nat.le_of_ble_eq_true rfl⟩

theorem EncodeLength.loda (r : Reg) (a : AbsOperand) : EncodeLength.Statement (.loda r a) :=
  ⟨rfl, Nat.le_of_ble_eq_true rfl, Nat.le_of_ble_eq_true rfl⟩

theorem EncodeLength.spsu : EncodeLength.Statement .spsu :=
  ⟨rfl, Nat.le_of_ble_eq_true rfl, Nat.le_of_ble_eq_true rfl⟩

theorem EncodeLength.spsl : EncodeLength.Statement .spsl :=
  ⟨rfl, Nat.le_of_ble_eq_true rfl, Nat.le_of_ble_eq_true rfl⟩

theorem EncodeLength.retc (d : Cond) : EncodeLength.Statement (.retc d) :=
  ⟨rfl, Nat.le_of_ble_eq_true rfl, Nat.le_of_ble_eq_true rfl⟩

theorem EncodeLength.bctr (d : Cond) (l : RelOperand) : EncodeLength.Statement (.bctr d l) :=
  ⟨rfl, Nat.le_of_ble_eq_true rfl, Nat.le_of_ble_eq_true rfl⟩

theorem EncodeLength.bcta (d : Cond) (b : BranchOperand) : EncodeLength.Statement (.bcta d b) :=
  ⟨rfl, Nat.le_of_ble_eq_true rfl, Nat.le_of_ble_eq_true rfl⟩

theorem EncodeLength.eorz (r : Reg) : EncodeLength.Statement (.eorz r) :=
  ⟨rfl, Nat.le_of_ble_eq_true rfl, Nat.le_of_ble_eq_true rfl⟩

theorem EncodeLength.eori (r : Reg) (imm : Byte) : EncodeLength.Statement (.eori r imm) :=
  ⟨rfl, Nat.le_of_ble_eq_true rfl, Nat.le_of_ble_eq_true rfl⟩

theorem EncodeLength.eorr (r : Reg) (l : RelOperand) : EncodeLength.Statement (.eorr r l) :=
  ⟨rfl, Nat.le_of_ble_eq_true rfl, Nat.le_of_ble_eq_true rfl⟩

theorem EncodeLength.eora (r : Reg) (a : AbsOperand) : EncodeLength.Statement (.eora r a) :=
  ⟨rfl, Nat.le_of_ble_eq_true rfl, Nat.le_of_ble_eq_true rfl⟩

theorem EncodeLength.redc (r : Reg) : EncodeLength.Statement (.redc r) :=
  ⟨rfl, Nat.le_of_ble_eq_true rfl, Nat.le_of_ble_eq_true rfl⟩

theorem EncodeLength.rete (d : Cond) : EncodeLength.Statement (.rete d) :=
  ⟨rfl, Nat.le_of_ble_eq_true rfl, Nat.le_of_ble_eq_true rfl⟩

theorem EncodeLength.bstr (d : Cond) (l : RelOperand) : EncodeLength.Statement (.bstr d l) :=
  ⟨rfl, Nat.le_of_ble_eq_true rfl, Nat.le_of_ble_eq_true rfl⟩

theorem EncodeLength.bsta (d : Cond) (b : BranchOperand) : EncodeLength.Statement (.bsta d b) :=
  ⟨rfl, Nat.le_of_ble_eq_true rfl, Nat.le_of_ble_eq_true rfl⟩

theorem EncodeLength.halt : EncodeLength.Statement .halt :=
  ⟨rfl, Nat.le_of_ble_eq_true rfl, Nat.le_of_ble_eq_true rfl⟩

theorem EncodeLength.andz (r : Reg) : EncodeLength.Statement (.andz r) :=
  ⟨rfl, Nat.le_of_ble_eq_true rfl, Nat.le_of_ble_eq_true rfl⟩

theorem EncodeLength.andi (r : Reg) (imm : Byte) : EncodeLength.Statement (.andi r imm) :=
  ⟨rfl, Nat.le_of_ble_eq_true rfl, Nat.le_of_ble_eq_true rfl⟩

theorem EncodeLength.andr (r : Reg) (l : RelOperand) : EncodeLength.Statement (.andr r l) :=
  ⟨rfl, Nat.le_of_ble_eq_true rfl, Nat.le_of_ble_eq_true rfl⟩

theorem EncodeLength.anda (r : Reg) (a : AbsOperand) : EncodeLength.Statement (.anda r a) :=
  ⟨rfl, Nat.le_of_ble_eq_true rfl, Nat.le_of_ble_eq_true rfl⟩

theorem EncodeLength.rrr (r : Reg) : EncodeLength.Statement (.rrr r) :=
  ⟨rfl, Nat.le_of_ble_eq_true rfl, Nat.le_of_ble_eq_true rfl⟩

theorem EncodeLength.rede (r : Reg) (port : Byte) : EncodeLength.Statement (.rede r port) :=
  ⟨rfl, Nat.le_of_ble_eq_true rfl, Nat.le_of_ble_eq_true rfl⟩

theorem EncodeLength.brnr (r : Reg) (l : RelOperand) : EncodeLength.Statement (.brnr r l) :=
  ⟨rfl, Nat.le_of_ble_eq_true rfl, Nat.le_of_ble_eq_true rfl⟩

theorem EncodeLength.brna (r : Reg) (b : BranchOperand) : EncodeLength.Statement (.brna r b) :=
  ⟨rfl, Nat.le_of_ble_eq_true rfl, Nat.le_of_ble_eq_true rfl⟩

theorem EncodeLength.iorz (r : Reg) : EncodeLength.Statement (.iorz r) :=
  ⟨rfl, Nat.le_of_ble_eq_true rfl, Nat.le_of_ble_eq_true rfl⟩

theorem EncodeLength.iori (r : Reg) (imm : Byte) : EncodeLength.Statement (.iori r imm) :=
  ⟨rfl, Nat.le_of_ble_eq_true rfl, Nat.le_of_ble_eq_true rfl⟩

theorem EncodeLength.iorr (r : Reg) (l : RelOperand) : EncodeLength.Statement (.iorr r l) :=
  ⟨rfl, Nat.le_of_ble_eq_true rfl, Nat.le_of_ble_eq_true rfl⟩

theorem EncodeLength.iora (r : Reg) (a : AbsOperand) : EncodeLength.Statement (.iora r a) :=
  ⟨rfl, Nat.le_of_ble_eq_true rfl, Nat.le_of_ble_eq_true rfl⟩

theorem EncodeLength.redd (r : Reg) : EncodeLength.Statement (.redd r) :=
  ⟨rfl, Nat.le_of_ble_eq_true rfl, Nat.le_of_ble_eq_true rfl⟩

theorem EncodeLength.cpsu (imm : Byte) : EncodeLength.Statement (.cpsu imm) :=
  ⟨rfl, Nat.le_of_ble_eq_true rfl, Nat.le_of_ble_eq_true rfl⟩

theorem EncodeLength.cpsl (imm : Byte) : EncodeLength.Statement (.cpsl imm) :=
  ⟨rfl, Nat.le_of_ble_eq_true rfl, Nat.le_of_ble_eq_true rfl⟩

theorem EncodeLength.ppsu (imm : Byte) : EncodeLength.Statement (.ppsu imm) :=
  ⟨rfl, Nat.le_of_ble_eq_true rfl, Nat.le_of_ble_eq_true rfl⟩

theorem EncodeLength.ppsl (imm : Byte) : EncodeLength.Statement (.ppsl imm) :=
  ⟨rfl, Nat.le_of_ble_eq_true rfl, Nat.le_of_ble_eq_true rfl⟩

theorem EncodeLength.bsnr (r : Reg) (l : RelOperand) : EncodeLength.Statement (.bsnr r l) :=
  ⟨rfl, Nat.le_of_ble_eq_true rfl, Nat.le_of_ble_eq_true rfl⟩

theorem EncodeLength.bsna (r : Reg) (b : BranchOperand) : EncodeLength.Statement (.bsna r b) :=
  ⟨rfl, Nat.le_of_ble_eq_true rfl, Nat.le_of_ble_eq_true rfl⟩

theorem EncodeLength.addz (r : Reg) : EncodeLength.Statement (.addz r) :=
  ⟨rfl, Nat.le_of_ble_eq_true rfl, Nat.le_of_ble_eq_true rfl⟩

theorem EncodeLength.addi (r : Reg) (imm : Byte) : EncodeLength.Statement (.addi r imm) :=
  ⟨rfl, Nat.le_of_ble_eq_true rfl, Nat.le_of_ble_eq_true rfl⟩

theorem EncodeLength.addr (r : Reg) (l : RelOperand) : EncodeLength.Statement (.addr r l) :=
  ⟨rfl, Nat.le_of_ble_eq_true rfl, Nat.le_of_ble_eq_true rfl⟩

theorem EncodeLength.adda (r : Reg) (a : AbsOperand) : EncodeLength.Statement (.adda r a) :=
  ⟨rfl, Nat.le_of_ble_eq_true rfl, Nat.le_of_ble_eq_true rfl⟩

theorem EncodeLength.lpsu : EncodeLength.Statement .lpsu :=
  ⟨rfl, Nat.le_of_ble_eq_true rfl, Nat.le_of_ble_eq_true rfl⟩

theorem EncodeLength.lpsl : EncodeLength.Statement .lpsl :=
  ⟨rfl, Nat.le_of_ble_eq_true rfl, Nat.le_of_ble_eq_true rfl⟩

theorem EncodeLength.dar (r : Reg) : EncodeLength.Statement (.dar r) :=
  ⟨rfl, Nat.le_of_ble_eq_true rfl, Nat.le_of_ble_eq_true rfl⟩

theorem EncodeLength.bcfr (d : Cond) (l : RelOperand) : EncodeLength.Statement (.bcfr d l) :=
  ⟨rfl, Nat.le_of_ble_eq_true rfl, Nat.le_of_ble_eq_true rfl⟩

theorem EncodeLength.zbrr (l : RelOperand) : EncodeLength.Statement (.zbrr l) :=
  ⟨rfl, Nat.le_of_ble_eq_true rfl, Nat.le_of_ble_eq_true rfl⟩

theorem EncodeLength.bcfa (d : Cond) (b : BranchOperand) : EncodeLength.Statement (.bcfa d b) :=
  ⟨rfl, Nat.le_of_ble_eq_true rfl, Nat.le_of_ble_eq_true rfl⟩

theorem EncodeLength.bxa (b : BranchOperand) : EncodeLength.Statement (.bxa b) :=
  ⟨rfl, Nat.le_of_ble_eq_true rfl, Nat.le_of_ble_eq_true rfl⟩

theorem EncodeLength.subz (r : Reg) : EncodeLength.Statement (.subz r) :=
  ⟨rfl, Nat.le_of_ble_eq_true rfl, Nat.le_of_ble_eq_true rfl⟩

theorem EncodeLength.subi (r : Reg) (imm : Byte) : EncodeLength.Statement (.subi r imm) :=
  ⟨rfl, Nat.le_of_ble_eq_true rfl, Nat.le_of_ble_eq_true rfl⟩

theorem EncodeLength.subr (r : Reg) (l : RelOperand) : EncodeLength.Statement (.subr r l) :=
  ⟨rfl, Nat.le_of_ble_eq_true rfl, Nat.le_of_ble_eq_true rfl⟩

theorem EncodeLength.suba (r : Reg) (a : AbsOperand) : EncodeLength.Statement (.suba r a) :=
  ⟨rfl, Nat.le_of_ble_eq_true rfl, Nat.le_of_ble_eq_true rfl⟩

theorem EncodeLength.wrtc (r : Reg) : EncodeLength.Statement (.wrtc r) :=
  ⟨rfl, Nat.le_of_ble_eq_true rfl, Nat.le_of_ble_eq_true rfl⟩

theorem EncodeLength.tpsu (imm : Byte) : EncodeLength.Statement (.tpsu imm) :=
  ⟨rfl, Nat.le_of_ble_eq_true rfl, Nat.le_of_ble_eq_true rfl⟩

theorem EncodeLength.tpsl (imm : Byte) : EncodeLength.Statement (.tpsl imm) :=
  ⟨rfl, Nat.le_of_ble_eq_true rfl, Nat.le_of_ble_eq_true rfl⟩

theorem EncodeLength.bsfr (d : Cond) (l : RelOperand) : EncodeLength.Statement (.bsfr d l) :=
  ⟨rfl, Nat.le_of_ble_eq_true rfl, Nat.le_of_ble_eq_true rfl⟩

theorem EncodeLength.zbsr (l : RelOperand) : EncodeLength.Statement (.zbsr l) :=
  ⟨rfl, Nat.le_of_ble_eq_true rfl, Nat.le_of_ble_eq_true rfl⟩

theorem EncodeLength.bsfa (d : Cond) (b : BranchOperand) : EncodeLength.Statement (.bsfa d b) :=
  ⟨rfl, Nat.le_of_ble_eq_true rfl, Nat.le_of_ble_eq_true rfl⟩

theorem EncodeLength.bsxa (b : BranchOperand) : EncodeLength.Statement (.bsxa b) :=
  ⟨rfl, Nat.le_of_ble_eq_true rfl, Nat.le_of_ble_eq_true rfl⟩

theorem EncodeLength.nop : EncodeLength.Statement .nop :=
  ⟨rfl, Nat.le_of_ble_eq_true rfl, Nat.le_of_ble_eq_true rfl⟩

theorem EncodeLength.strz (r : Reg) : EncodeLength.Statement (.strz r) :=
  ⟨rfl, Nat.le_of_ble_eq_true rfl, Nat.le_of_ble_eq_true rfl⟩

theorem EncodeLength.strr (r : Reg) (l : RelOperand) : EncodeLength.Statement (.strr r l) :=
  ⟨rfl, Nat.le_of_ble_eq_true rfl, Nat.le_of_ble_eq_true rfl⟩

theorem EncodeLength.stra (r : Reg) (a : AbsOperand) : EncodeLength.Statement (.stra r a) :=
  ⟨rfl, Nat.le_of_ble_eq_true rfl, Nat.le_of_ble_eq_true rfl⟩

theorem EncodeLength.rrl (r : Reg) : EncodeLength.Statement (.rrl r) :=
  ⟨rfl, Nat.le_of_ble_eq_true rfl, Nat.le_of_ble_eq_true rfl⟩

theorem EncodeLength.wrte (r : Reg) (port : Byte) : EncodeLength.Statement (.wrte r port) :=
  ⟨rfl, Nat.le_of_ble_eq_true rfl, Nat.le_of_ble_eq_true rfl⟩

theorem EncodeLength.birr (r : Reg) (l : RelOperand) : EncodeLength.Statement (.birr r l) :=
  ⟨rfl, Nat.le_of_ble_eq_true rfl, Nat.le_of_ble_eq_true rfl⟩

theorem EncodeLength.bira (r : Reg) (b : BranchOperand) : EncodeLength.Statement (.bira r b) :=
  ⟨rfl, Nat.le_of_ble_eq_true rfl, Nat.le_of_ble_eq_true rfl⟩

theorem EncodeLength.comz (r : Reg) : EncodeLength.Statement (.comz r) :=
  ⟨rfl, Nat.le_of_ble_eq_true rfl, Nat.le_of_ble_eq_true rfl⟩

theorem EncodeLength.comi (r : Reg) (imm : Byte) : EncodeLength.Statement (.comi r imm) :=
  ⟨rfl, Nat.le_of_ble_eq_true rfl, Nat.le_of_ble_eq_true rfl⟩

theorem EncodeLength.comr (r : Reg) (l : RelOperand) : EncodeLength.Statement (.comr r l) :=
  ⟨rfl, Nat.le_of_ble_eq_true rfl, Nat.le_of_ble_eq_true rfl⟩

theorem EncodeLength.coma (r : Reg) (a : AbsOperand) : EncodeLength.Statement (.coma r a) :=
  ⟨rfl, Nat.le_of_ble_eq_true rfl, Nat.le_of_ble_eq_true rfl⟩

theorem EncodeLength.wrtd (r : Reg) : EncodeLength.Statement (.wrtd r) :=
  ⟨rfl, Nat.le_of_ble_eq_true rfl, Nat.le_of_ble_eq_true rfl⟩

theorem EncodeLength.tmi (r : Reg) (imm : Byte) : EncodeLength.Statement (.tmi r imm) :=
  ⟨rfl, Nat.le_of_ble_eq_true rfl, Nat.le_of_ble_eq_true rfl⟩

theorem EncodeLength.bdrr (r : Reg) (l : RelOperand) : EncodeLength.Statement (.bdrr r l) :=
  ⟨rfl, Nat.le_of_ble_eq_true rfl, Nat.le_of_ble_eq_true rfl⟩

theorem EncodeLength.bdra (r : Reg) (b : BranchOperand) : EncodeLength.Statement (.bdra r b) :=
  ⟨rfl, Nat.le_of_ble_eq_true rfl, Nat.le_of_ble_eq_true rfl⟩

end Sys2Proof.Laws
end

