-- ==== Sys2Proof/Tests/Slice0.lean ====
section
/-! SUPPORT. Tests on fixed values, their expected results taken from the spec (95_test_vectors.md, opcode_table.json,
60_exceptions.md), the smoke test of `Instr.wellFormed`, and a concrete state and operands for the hypotheses of every
obligation that has some. -/

namespace Sys2Proof.Tests

open Sys2Proof.Machine

/-- R1, R2, R3 of a bank. -/
def bank (a b c : Byte) : RegBank := { r1 := a, r2 := b, r3 := c }

/-- The state with bytes at an address and the next ones. -/
def poke (s : State) (a : Nat) (bs : List Byte) : State :=
  match bs with
  | [] => s
  | b :: bs => poke { s with mem := s.mem.write a b } (a + 1) bs

/-- The state with the bytes of one instruction at `pc`; the third byte of the page's last instructions wraps (R28). -/
def code (bs : List Byte) (s : State) : State :=
  match bs with
  | [] => s
  | [a] => poke s s.pc.toNat [a]
  | [a, b] => poke (poke s s.pc.toNat [a]) (s.nextAddr 1).toNat [b]
  | a :: b :: c :: _ => poke (poke (poke s s.pc.toNat [a]) (s.nextAddr 1).toNat [b]) (s.nextAddr 2).toNat [c]

/-- What one step leaves, seen through `f`; nothing when it stops. -/
def after {α : Type} (s : State) (f : State → α) : Option α :=
  match step s with
  | .next t => some (f t)
  | .fault _ => none
  | .refused _ => none

/-- Reset with one region in `MEM_MAP`: four addresses from 0x0300 on. -/
def mapped (k : Config.MemKind) : State :=
  { State.reset with params := { Config.defaults with memMap := [{ base := 0x0300, size := 4, kind := k }] } }

/-- Reset with INTREQ asserted and a vector byte. -/
def requested (vector psu : Byte) (pc : Addr) : State :=
  { State.reset with
    pins := { sense := false, intreq := true, vector := vector, reset := false }, psu := psu, pc := pc }

/-- Reset under `FLAG_PROFILE = manual`. -/
def manual : State :=
  { State.reset with params := { Config.defaults with flagProfile := .manual } }

/-! The check `Instr.wellFormed` refuses one term of each of its six kinds (R126, R127). -/

theorem test_andz_r0_ill_formed : (Instr.andz .r0).wellFormed = false := by decide
theorem test_strz_r0_ill_formed : (Instr.strz .r0).wellFormed = false := by decide
theorem test_bcfr_3_ill_formed : (Instr.bcfr 3 { indirect := false, disp := 0x05 }).wellFormed = false := by decide
theorem test_bcfa_3_ill_formed : (Instr.bcfa 3 { indirect := false, addr := 0x0300 }).wellFormed = false := by decide
theorem test_bsfr_3_ill_formed : (Instr.bsfr 3 { indirect := false, disp := 0x05 }).wellFormed = false := by decide
theorem test_bsfa_3_ill_formed : (Instr.bsfa 3 { indirect := false, addr := 0x0300 }).wellFormed = false := by decide

/-! Every mnemonic's word, its bytes from 95_test_vectors.md, bit 0 the least significant bit of the first byte. -/

/-- Instruction words of vectors A (arithmetic), written first byte lowest. -/
theorem test_decode_arithmetic :
    decodeTableWord 16 0x0184 = some (.addi .r0 0x01) ∧
    decodeTableWord 8 0x80 = some (.addz .r0) ∧
    decodeTableWord 16 0x8289 = some (.addr .r1 { indirect := true, disp := 0x02 }) ∧
    decodeTableWord 24 0x00638E = some (.adda .r2 { indirect := false, index := .indexed, addr := 0x0300 }) ∧
    decodeTableWord 16 0x01A4 = some (.subi .r0 0x01) ∧
    decodeTableWord 8 0xA0 = some (.subz .r0) ∧
    decodeTableWord 16 0x7EAB = some (.subr .r3 { indirect := false, disp := 0x7E }) ∧
    decodeTableWord 24 0x0084AD = some (.suba .r1 { indirect := true, index := .plain, addr := 0x0400 }) ∧
    decodeTableWord 16 0x01E4 = some (.comi .r0 0x01) ∧
    decodeTableWord 8 0xE1 = some (.comz .r1) ∧
    decodeTableWord 16 0x00E9 = some (.comr .r1 { indirect := false, disp := 0x00 }) ∧
    decodeTableWord 24 0x0043ED = some (.coma .r1 { indirect := false, index := .autoDecrement, addr := 0x0300 }) ∧
    decodeTableWord 8 0x94 = some (.dar .r0) := by decide

/-- Instruction words of vectors G (logical), written first byte lowest. -/
theorem test_decode_logical :
    decodeTableWord 16 0x0F44 = some (.andi .r0 0x0F) ∧
    decodeTableWord 8 0x42 = some (.andz .r2) ∧
    decodeTableWord 16 0x0149 = some (.andr .r1 { indirect := false, disp := 0x01 }) ∧
    decodeTableWord 24 0x00014F = some (.anda .r3 { indirect := false, index := .plain, addr := 0x0100 }) ∧
    decodeTableWord 16 0x8064 = some (.iori .r0 0x80) ∧
    decodeTableWord 8 0x60 = some (.iorz .r0) ∧
    decodeTableWord 16 0x7F6A = some (.iorr .r2 { indirect := false, disp := 0x7F }) ∧
    decodeTableWord 24 0x00016D = some (.iora .r1 { indirect := false, index := .plain, addr := 0x0100 }) ∧
    decodeTableWord 16 0xFF24 = some (.eori .r0 0xFF) ∧
    decodeTableWord 8 0x20 = some (.eorz .r0) ∧
    decodeTableWord 16 0x0029 = some (.eorr .r1 { indirect := false, disp := 0x00 }) ∧
    decodeTableWord 24 0xFF1F2E = some (.eora .r2 { indirect := false, index := .plain, addr := 0x1FFF }) ∧
    decodeTableWord 16 0x81F4 = some (.tmi .r0 0x81) := by decide

/-- Instruction words of vectors B (branch), written first byte lowest. -/
theorem test_decode_branch :
    decodeTableWord 16 0x0518 = some (.bctr 0 { indirect := false, disp := 0x05 }) ∧
    decodeTableWord 24 0x20801F = some (.bcta 3 { indirect := true, addr := 0x0020 }) ∧
    decodeTableWord 16 0x0598 = some (.bcfr 0 { indirect := false, disp := 0x05 }) ∧
    decodeTableWord 24 0x00039E = some (.bcfa 2 { indirect := false, addr := 0x0300 }) ∧
    decodeTableWord 16 0x0459 = some (.brnr .r1 { indirect := false, disp := 0x04 }) ∧
    decodeTableWord 24 0x00205C = some (.brna .r0 { indirect := false, addr := 0x2000 }) ∧
    decodeTableWord 16 0x7ED9 = some (.birr .r1 { indirect := false, disp := 0x7E }) ∧
    decodeTableWord 24 0x0004DE = some (.bira .r2 { indirect := false, addr := 0x0400 }) ∧
    decodeTableWord 16 0x7EF9 = some (.bdrr .r1 { indirect := false, disp := 0x7E }) ∧
    decodeTableWord 24 0x0005FF = some (.bdra .r3 { indirect := false, addr := 0x0500 }) ∧
    decodeTableWord 24 0x40809F = some (.bxa { indirect := true, addr := 0x0040 }) ∧
    decodeTableWord 16 0x869B = some (.zbrr { indirect := true, disp := 0x06 }) := by decide

/-- Instruction words of vectors S (subroutine), written first byte lowest. -/
theorem test_decode_subroutine :
    decodeTableWord 24 0x00053F = some (.bsta 3 { indirect := false, addr := 0x0500 }) ∧
    decodeTableWord 16 0x8039 = some (.bstr 1 { indirect := true, disp := 0x00 }) ∧
    decodeTableWord 24 0x0006BC = some (.bsfa 0 { indirect := false, addr := 0x0600 }) ∧
    decodeTableWord 16 0x02BA = some (.bsfr 2 { indirect := false, disp := 0x02 }) ∧
    decodeTableWord 24 0x00077D = some (.bsna .r1 { indirect := false, addr := 0x0700 }) ∧
    decodeTableWord 16 0x0478 = some (.bsnr .r0 { indirect := false, disp := 0x04 }) ∧
    decodeTableWord 24 0x0003BF = some (.bsxa { indirect := false, addr := 0x0300 }) ∧
    decodeTableWord 16 0xFEBB = some (.zbsr { indirect := true, disp := 0x7E }) ∧
    decodeTableWord 8 0x17 = some (.retc 3) ∧
    decodeTableWord 8 0x37 = some (.rete 3) := by decide

/-- Instruction words of vectors P (program status), written first byte lowest. -/
theorem test_decode_program_status :
    decodeTableWord 16 0x0975 = some (.cpsl 0x09) ∧
    decodeTableWord 16 0x1077 = some (.ppsl 0x10) ∧
    decodeTableWord 16 0x2074 = some (.cpsu 0x20) ∧
    decodeTableWord 16 0x2076 = some (.ppsu 0x20) ∧
    decodeTableWord 8 0x93 = some (.lpsl) ∧
    decodeTableWord 8 0x92 = some (.lpsu) ∧
    decodeTableWord 8 0x13 = some (.spsl) ∧
    decodeTableWord 8 0x12 = some (.spsu) ∧
    decodeTableWord 16 0x05B5 = some (.tpsl 0x05) ∧
    decodeTableWord 16 0x80B4 = some (.tpsu 0x80) := by decide

/-- Instruction words of vectors M (misc control), written first byte lowest. -/
theorem test_decode_misc_control :
    decodeTableWord 8 0x40 = some (.halt) ∧
    decodeTableWord 8 0xC0 = some (.nop) := by decide

/-- Instruction words of vectors L (load and store), written first byte lowest. -/
theorem test_decode_load_and_store :
    decodeTableWord 16 0x0004 = some (.lodi .r0 0x00) ∧
    decodeTableWord 8 0x02 = some (.lodz .r2) ∧
    decodeTableWord 16 0x8009 = some (.lodr .r1 { indirect := true, disp := 0x00 }) ∧
    decodeTableWord 24 0x00E10D = some (.loda .r1 { indirect := true, index := .indexed, addr := 0x0100 }) ∧
    decodeTableWord 8 0xC1 = some (.strz .r1) ∧
    decodeTableWord 16 0x80C8 = some (.strr .r0 { indirect := true, disp := 0x00 }) ∧
    decodeTableWord 24 0x0021CF = some (.stra .r3 { indirect := false, index := .autoIncrement, addr := 0x0100 }) := by decide

/-- Instruction words of vectors I (input and output), written first byte lowest. -/
theorem test_decode_input_and_output :
    decodeTableWord 8 0x30 = some (.redc .r0) ∧
    decodeTableWord 8 0x71 = some (.redd .r1) ∧
    decodeTableWord 16 0x7F56 = some (.rede .r2 0x7F) ∧
    decodeTableWord 8 0xB0 = some (.wrtc .r0) ∧
    decodeTableWord 8 0xF3 = some (.wrtd .r3) ∧
    decodeTableWord 16 0xFFD5 = some (.wrte .r1 0xFF) := by decide

/-- Instruction words of vectors T (rotate), written first byte lowest. -/
theorem test_decode_rotate :
    decodeTableWord 8 0xD0 = some (.rrl .r0) ∧
    decodeTableWord 8 0x50 = some (.rrr .r0) := by decide

/-! The bytes that share a row's span with another instruction (R126, R127), and the ten reserved ones (R128). -/

theorem test_decode_shared_spans :
    decodeTableWord 8 0x40 = some .halt ∧ decodeTableWord 8 0x41 = some (.andz .r1) ∧
    decodeTableWord 8 0xC0 = some .nop ∧ decodeTableWord 8 0xC1 = some (.strz .r1) ∧
    decodeTableWord 16 0x059B = some (.zbrr { indirect := false, disp := 0x05 }) ∧
    decodeTableWord 24 0x00039F = some (.bxa { indirect := false, addr := 0x0300 }) ∧
    decodeTableWord 16 0x05BB = some (.zbsr { indirect := false, disp := 0x05 }) ∧
    decodeTableWord 24 0x0003BF = some (.bsxa { indirect := false, addr := 0x0300 }) := by decide

theorem test_decode_reserved : reservedBytes.map (fun op => decodeTableWord 8 op.toNat) = List.replicate 10 none := by decide

theorem test_encode_operands :
    encode (.adda .r2 { indirect := true, index := .autoDecrement, addr := 0x1234 }) = [0x8E, 0xD2, 0x34] ∧
    encode (.bcta 1 { indirect := true, addr := 0x7ABC }) = [0x1D, 0xFA, 0xBC] ∧
    encode (.strr .r3 { indirect := true, disp := 0x7E }) = [0xCB, 0xFE] := by decide

/-- Memory keeps its canonical form: a byte equal to the unlisted one is dropped again (R60, log 4). -/
theorem test_memory_canonical :
    Memory.write (Memory.write [] 5 0x12) 3 0x34 = [(3, 0x34), (5, 0x12)] ∧
    Memory.write [(3, 0x34), (5, 0x12)] 3 0x00 = [(5, 0x12)] := by decide

/-- Vectors M: a reserved byte stops the machine. -/
theorem test_M10_reserved : step (code [0xC4] { State.reset with pc := 0x0010 }) = .fault (.reservedOpcode 0xC4) := rfl

/-! Vectors A of 95_test_vectors.md: arithmetic. -/

theorem test_A1_addi :
    after (code [0x84, 0x01] { State.reset with r0 := 0xFF })
      (fun t => (t.r0, t.psl, t.pc)) =
      some (0x00, 0x21, 0x0002) := by decide

theorem test_A3_addi :
    after (code [0x84, 0x20] { State.reset with r0 := 0x10, psl := 0x09 })
      (fun t => (t.r0, t.psl, t.pc)) =
      some (0x31, 0x48, 0x0002) := by decide

theorem test_A6_addz :
    after (code [0x80] { State.reset with r0 := 0x81 })
      (fun t => (t.r0, t.psl, t.pc)) =
      some (0x02, 0x45, 0x0001) := by decide

theorem test_A8_addr :
    after (poke (code [0x89, 0x02] { State.reset with bank0 := bank 0x01 0x00 0x00, pc := 0x0100 }) 0x0104 [0x0F])
      (fun t => (t.bank0.r1, t.psl, t.pc)) =
      some (0x10, 0x60, 0x0102) := by decide

theorem test_A9_addr :
    after (poke (poke (code [0x89, 0x82] { State.reset with bank0 := bank 0x01 0x00 0x00, pc := 0x0100 }) 0x0104 [0x03, 0x00]) 0x0300 [0x40])
      (fun t => (t.bank0.r1, t.psl, t.pc)) =
      some (0x41, 0x40, 0x0102) := by decide

theorem test_A10_adda :
    after (poke (code [0x8E, 0x03, 0x00] { State.reset with bank0 := bank 0x00 0x22 0x00 }) 0x0300 [0x11])
      (fun t => (t.bank0.r2, t.psl, t.pc)) =
      some (0x33, 0x40, 0x0003) := by decide

theorem test_A12_adda :
    after (poke (code [0x8E, 0x23, 0x00] { State.reset with r0 := 0x01, bank0 := bank 0x00 0x05 0x00 }) 0x0306 [0x02])
      (fun t => (t.r0, t.bank0.r2, t.psl, t.pc)) =
      some (0x03, 0x06, 0x40, 0x0003) := by decide

theorem test_A15_subi :
    after (code [0xA4, 0x01] { State.reset with r0 := 0x10, psl := 0x08 })
      (fun t => (t.r0, t.psl, t.pc)) =
      some (0x0E, 0x49, 0x0002) := by decide

theorem test_A14_subi :
    after (code [0xA4, 0x01] { State.reset with r0 := 0x80 })
      (fun t => (t.r0, t.psl, t.pc)) =
      some (0x7F, 0x45, 0x0002) := by decide

theorem test_A18_subz :
    after (code [0xA1] { State.reset with r0 := 0x50, bank0 := bank 0x60 0x00 0x00 })
      (fun t => (t.r0, t.psl, t.pc)) =
      some (0xF0, 0xA0, 0x0001) := by decide

theorem test_A19_subr :
    after (code [0xAB, 0x7E] { State.reset with bank0 := bank 0x00 0x00 0xAB, pc := 0x0200 })
      (fun t => (t.bank0.r3, t.psl, t.pc)) =
      some (0x00, 0x21, 0x0202) := by decide

theorem test_A20_suba :
    after (poke (poke (code [0xAD, 0x84, 0x00] { State.reset with bank0 := bank 0x09 0x00 0x00 }) 0x0400 [0x12, 0x34]) 0x1234 [0x0A])
      (fun t => (t.bank0.r1, t.psl, t.pc)) =
      some (0xFF, 0x80, 0x0003) := by decide

theorem test_A21_comi :
    after (code [0xE4, 0x01] { State.reset with r0 := 0x80 })
      (fun t => (t.psl, t.pc)) =
      some (0x80, 0x0002) := by decide

theorem test_A22_comi :
    after (code [0xE4, 0x01] { State.reset with r0 := 0x80, psl := 0x02 })
      (fun t => (t.psl, t.pc)) =
      some (0x42, 0x0002) := by decide

theorem test_A24_comz :
    after (code [0xE1] { State.reset with r0 := 0x05, bank0 := bank 0x06 0x00 0x00 })
      (fun t => (t.psl, t.pc)) =
      some (0x80, 0x0001) := by decide

theorem test_A26_comr :
    after (poke (code [0xE9, 0x00] { State.reset with bank0 := bank 0x10 0x00 0x00 }) 0x0002 [0x0F])
      (fun t => (t.psl, t.pc)) =
      some (0x40, 0x0002) := by decide

theorem test_A27_coma :
    after (poke (code [0xED, 0x43, 0x00] { State.reset with r0 := 0x01, bank0 := bank 0x00 0x00 0x00 }) 0x03FF [0x01])
      (fun t => (t.bank0.r1, t.psl, t.pc)) =
      some (0xFF, 0x00, 0x0003) := by decide

theorem test_A28_dar :
    after (code [0x94] { State.reset with r0 := 0xE3, psl := 0x20 })
      (fun t => (t.r0, t.psl, t.pc)) =
      some (0x83, 0x20, 0x0001) := by decide

theorem test_A30_dar :
    after (code [0x95] { State.reset with bank0 := bank 0x00 0x00 0x00 })
      (fun t => (t.bank0.r1, t.psl, t.pc)) =
      some (0xAA, 0x00, 0x0001) := by decide

/-! Vectors G of 95_test_vectors.md: logical. -/

theorem test_G1_andi :
    after (code [0x44, 0x0F] { State.reset with r0 := 0xA5 })
      (fun t => (t.r0, t.psl, t.pc)) =
      some (0x05, 0x40, 0x0002) := by decide

theorem test_G3_andz :
    after (code [0x42] { State.reset with r0 := 0xF0, bank0 := bank 0x00 0x9F 0x00 })
      (fun t => (t.r0, t.psl, t.pc)) =
      some (0x90, 0x80, 0x0001) := by decide

theorem test_G4_andr :
    after (poke (code [0x49, 0x01] { State.reset with bank0 := bank 0x3C 0x00 0x00 }) 0x0003 [0x0F])
      (fun t => (t.bank0.r1, t.psl, t.pc)) =
      some (0x0C, 0x40, 0x0002) := by decide

theorem test_G5_anda :
    after (poke (code [0x4F, 0x01, 0x00] { State.reset with bank0 := bank 0x00 0x00 0xFF }) 0x0100 [0x81])
      (fun t => (t.bank0.r3, t.psl, t.pc)) =
      some (0x81, 0x80, 0x0003) := by decide

theorem test_G6_iori :
    after (code [0x64, 0x80] { State.reset with r0 := 0x01 })
      (fun t => (t.r0, t.psl, t.pc)) =
      some (0x81, 0x80, 0x0002) := by decide

theorem test_G8_iorz :
    after (code [0x61] { State.reset with r0 := 0x0F, bank0 := bank 0x30 0x00 0x00 })
      (fun t => (t.r0, t.psl, t.pc)) =
      some (0x3F, 0x40, 0x0001) := by decide

theorem test_G9_iorr :
    after (code [0x6A, 0x7F] { State.reset with bank0 := bank 0x00 0x80 0x00 })
      (fun t => (t.bank0.r2, t.psl, t.pc)) =
      some (0xFF, 0x80, 0x0002) := by decide

theorem test_G10_iora :
    after (poke (code [0x6D, 0x01, 0x00] { State.reset with bank0 := bank 0x00 0x00 0x00 }) 0x0100 [0x00])
      (fun t => (t.psl, t.pc)) =
      some (0x00, 0x0003) := by decide

theorem test_G11_eori :
    after (code [0x24, 0xFF] { State.reset with r0 := 0x5A })
      (fun t => (t.r0, t.psl, t.pc)) =
      some (0xA5, 0x80, 0x0002) := by decide

theorem test_G13_eorz :
    after (code [0x23] { State.reset with r0 := 0xF0, bank0 := bank 0x00 0x00 0x0F })
      (fun t => (t.r0, t.psl, t.pc)) =
      some (0xFF, 0x80, 0x0001) := by decide

theorem test_G14_eorr :
    after (poke (code [0x29, 0x00] { State.reset with bank0 := bank 0xAA 0x00 0x00 }) 0x0002 [0xAA])
      (fun t => (t.bank0.r1, t.psl, t.pc)) =
      some (0x00, 0x00, 0x0002) := by decide

theorem test_G15_eora :
    after (poke (code [0x2E, 0x1F, 0xFF] { State.reset with bank0 := bank 0x00 0x01 0x00 }) 0x1FFF [0x80])
      (fun t => (t.bank0.r2, t.psl, t.pc)) =
      some (0x81, 0x80, 0x0003) := by decide

theorem test_G16_tmi :
    after (code [0xF4, 0x81] { State.reset with r0 := 0xC3 })
      (fun t => (t.psl, t.pc)) =
      some (0x00, 0x0002) := by decide

theorem test_G17_tmi :
    after (code [0xF4, 0x81] { State.reset with r0 := 0x80 })
      (fun t => (t.psl, t.pc)) =
      some (0x80, 0x0002) := by decide

/-! Vectors B of 95_test_vectors.md: branch. -/

theorem test_B1_bctr :
    after (code [0x18, 0x05] { State.reset with pc := 0x0100 })
      (fun t => (t.pc)) =
      some (0x0107) := by decide

theorem test_B4_bctr :
    after (code [0x1B, 0x01] { State.reset with pc := 0x1FFE })
      (fun t => (t.pc)) =
      some (0x0001) := by decide

theorem test_B9_bcta :
    after (poke (code [0x1F, 0x80, 0x20] State.reset) 0x0020 [0xE5, 0x43])
      (fun t => (t.pc)) =
      some (0x6543) := by decide

theorem test_B13_bcfr :
    after (code [0x98, 0x05] { State.reset with pc := 0x0100, psl := 0x80 })
      (fun t => (t.pc)) =
      some (0x0107) := by decide

theorem test_B14_bcfa :
    after (code [0x9E, 0x03, 0x00] { State.reset with psl := 0xC0 })
      (fun t => (t.pc)) =
      some (0x0300) := by decide

theorem test_B16_brnr :
    after (code [0x59, 0x04] { State.reset with bank0 := bank 0x01 0x00 0x00 })
      (fun t => (t.pc)) =
      some (0x0006) := by decide

theorem test_B18_brna :
    after (code [0x5C, 0x20, 0x00] { State.reset with r0 := 0x80 })
      (fun t => (t.pc)) =
      some (0x2000) := by decide

theorem test_B19_birr :
    after (code [0xD9, 0x7E] { State.reset with bank0 := bank 0xFE 0x00 0x00 })
      (fun t => (t.bank0.r1, t.pc)) =
      some (0xFF, 0x0000) := by decide

theorem test_B20_birr :
    after (code [0xD9, 0x7E] { State.reset with bank0 := bank 0xFF 0x00 0x00 })
      (fun t => (t.bank0.r1, t.pc)) =
      some (0x00, 0x0002) := by decide

theorem test_B21_bira :
    after (code [0xDE, 0x04, 0x00] { State.reset with psl := 0x10 })
      (fun t => (t.bank1.r2, t.pc)) =
      some (0x01, 0x0400) := by decide

theorem test_B23_bdrr :
    after (code [0xF9, 0x7E] { State.reset with bank0 := bank 0x00 0x00 0x00 })
      (fun t => (t.bank0.r1, t.pc)) =
      some (0xFF, 0x0000) := by decide

theorem test_B24_bdra :
    after (code [0xFF, 0x05, 0x00] { State.reset with bank0 := bank 0x00 0x00 0x02, psl := 0xC7 })
      (fun t => (t.bank0.r3, t.pc)) =
      some (0x01, 0x0500) := by decide

theorem test_B26_bxa :
    after (code [0x9F, 0x7F, 0xFF] { State.reset with bank0 := bank 0x00 0x00 0x02 })
      (fun t => (t.pc)) =
      some (0x0001) := by decide

theorem test_B27_bxa :
    after (poke (code [0x9F, 0x80, 0x40] { State.reset with bank0 := bank 0x00 0x00 0x05 }) 0x0040 [0x21, 0x00])
      (fun t => (t.pc)) =
      some (0x2105) := by decide

theorem test_B29_zbrr :
    after (code [0x9B, 0x7E] { State.reset with pc := 0x0100 })
      (fun t => (t.pc)) =
      some (0x1FFE) := by decide

theorem test_B30_zbrr :
    after (poke (code [0x9B, 0x86] { State.reset with pc := 0x0100 }) 0x0006 [0x12, 0x00])
      (fun t => (t.pc)) =
      some (0x1200) := by decide

/-! Vectors S of 95_test_vectors.md: subroutine. -/

theorem test_S1_bsta :
    after (code [0x3F, 0x05, 0x00] { State.reset with pc := 0x1FFE, psu := 0x20 })
      (fun t => (t.psu, t.ras[0], t.pc)) =
      some (0x21, 0x0001, 0x0500) := by decide

theorem test_S3_bstr :
    after (code [0x3B, 0x10] { State.reset with pc := 0x0100, psu := 0x07 })
      (fun t => (t.psu, t.ras[7], t.pc)) =
      some (0x00, 0x0102, 0x0112) := by decide

theorem test_S5_bsfa :
    after (code [0xBC, 0x06, 0x00] { State.reset with pc := 0x0010, psu := 0x02, psl := 0x40 })
      (fun t => (t.psu, t.ras[2], t.pc)) =
      some (0x03, 0x0013, 0x0600) := by decide

theorem test_S6_bsfr :
    after (code [0xBA, 0x02] { State.reset with pc := 0x0010, psl := 0x80 })
      (fun t => (t.pc)) =
      some (0x0012) := by decide

theorem test_S7_bsna :
    after (code [0x7D, 0x07, 0x00] { State.reset with bank0 := bank 0x01 0x00 0x00, pc := 0x0010 })
      (fun t => (t.psu, t.ras[0], t.pc)) =
      some (0x01, 0x0013, 0x0700) := by decide

theorem test_S9_bsnr :
    after (code [0x78, 0x04] { State.reset with r0 := 0xFF, pc := 0x0010 })
      (fun t => (t.psu, t.ras[0], t.pc)) =
      some (0x01, 0x0012, 0x0016) := by decide

theorem test_S10_bsxa :
    after (code [0xBF, 0x03, 0x00] { State.reset with bank0 := bank 0x00 0x00 0x04, pc := 0x0010, psu := 0x03 })
      (fun t => (t.psu, t.ras[3], t.pc)) =
      some (0x04, 0x0013, 0x0304) := by decide

theorem test_S12_zbsr :
    after (poke (code [0xBB, 0xFE] { State.reset with pc := 0x0100 }) 0x1FFE [0x40, 0x00])
      (fun t => (t.psu, t.ras[0], t.pc)) =
      some (0x01, 0x0102, 0x4000) := by decide

theorem test_S15_retc :
    after (code [0x17] { State.reset with pc := 0x0500, psu := 0x00, ras := State.reset.ras.set 7 0x7ABC })
      (fun t => (t.psu, t.pc)) =
      some (0x07, 0x7ABC) := by decide

theorem test_S16_rete :
    after (code [0x37] { State.reset with pc := 0x0500, psu := 0x22, ras := State.reset.ras.set 1 0x0456 })
      (fun t => (t.psu, t.pc)) =
      some (0x01, 0x0456) := by decide

theorem test_S17_rete :
    after (code [0x35] { State.reset with pc := 0x0500, psu := 0x22, ras := State.reset.ras.set 1 0x0456 })
      (fun t => (t.pc)) =
      some (0x0501) := by decide

/-! Vectors P of 95_test_vectors.md: program status. -/

theorem test_P1_cpsl :
    after (code [0x75, 0x09] { State.reset with psl := 0xFF })
      (fun t => (t.psl, t.pc)) =
      some (0xF6, 0x0002) := by decide

theorem test_P4_ppsl :
    after (code [0x77, 0xC0] { State.reset with psl := 0x00 })
      (fun t => (t.psl, t.pc)) =
      some (0xC0, 0x0002) := by decide

theorem test_P5_cpsu :
    after (code [0x74, 0x20] { State.reset with psu := 0x25 })
      (fun t => (t.psu, t.pc)) =
      some (0x05, 0x0002) := by decide

theorem test_P8_ppsu :
    after (code [0x76, 0xFF] { State.reset with psu := 0x00 })
      (fun t => (t.psu, t.pc)) =
      some (0x67, 0x0002) := by decide

theorem test_P9_lpsl :
    after (code [0x93] { State.reset with r0 := 0x5A, psl := 0xFF })
      (fun t => (t.psl, t.pc)) =
      some (0x5A, 0x0001) := by decide

theorem test_P10_lpsu :
    after (code [0x92] { State.reset with r0 := 0xFF, psu := 0x00 })
      (fun t => (t.psu, t.pc)) =
      some (0x67, 0x0001) := by decide

theorem test_P12_spsl :
    after (code [0x13] { State.reset with r0 := 0x00, psl := 0x95 })
      (fun t => (t.r0, t.psl, t.pc)) =
      some (0x95, 0x95, 0x0001) := by decide

theorem test_P13_spsu :
    after (code [0x12] { State.reset with r0 := 0x00, psu := 0x25, pins := { State.reset.pins with sense := true } })
      (fun t => (t.r0, t.pc)) =
      some (0xA5, 0x0001) := by decide

theorem test_P16_tpsl :
    after (code [0xB5, 0x05] { State.reset with psl := 0x45 })
      (fun t => (t.psl, t.pc)) =
      some (0x05, 0x0002) := by decide

theorem test_P18_tpsu :
    after (code [0xB4, 0x80] { State.reset with pins := { State.reset.pins with sense := true } })
      (fun t => (t.psl, t.pc)) =
      some (0x00, 0x0002) := by decide

/-! Vectors M of 95_test_vectors.md: misc control. -/

theorem test_M1_halt :
    after (code [0x40] { State.reset with pc := 0x0010, psl := 0xC7 })
      (fun t => (t.waiting, t.pc)) =
      some (true, 0x0011) := by decide

theorem test_M2_halt :
    after (code [0x40] { State.reset with pc := 0x3FFF })
      (fun t => (t.waiting, t.pc)) =
      some (true, 0x2000) := by decide

theorem test_M3_nop :
    after (code [0xC0] { State.reset with r0 := 0x80, pc := 0x0010, psl := 0x00 })
      (fun t => (t.pc)) =
      some (0x0011) := by decide

/-! Vectors L of 95_test_vectors.md: load and store. -/

theorem test_L2_lodi :
    after (code [0x05, 0x80] { State.reset with psl := 0x00 })
      (fun t => (t.bank0.r1, t.psl, t.pc)) =
      some (0x80, 0x80, 0x0002) := by decide

theorem test_L3_lodi :
    after (code [0x05, 0x7F] { State.reset with psl := 0x10 })
      (fun t => (t.bank1.r1, t.psl, t.pc)) =
      some (0x7F, 0x50, 0x0002) := by decide

theorem test_L5_lodz :
    after (code [0x00] { State.reset with r0 := 0x90 })
      (fun t => (t.psl, t.pc)) =
      some (0x80, 0x0001) := by decide

theorem test_L8_lodr :
    after (poke (code [0x08, 0x01] { State.reset with pc := 0x3FFE }) 0x2001 [0x11])
      (fun t => (t.r0, t.psl, t.pc)) =
      some (0x11, 0x40, 0x2000) := by decide

theorem test_L9_loda :
    after (poke (poke (code [0x0D, 0x01, 0x23] { State.reset with pc := 0x2000 }) 0x2123 [0x77]) 0x0123 [0x66])
      (fun t => (t.bank0.r1, t.psl, t.pc)) =
      some (0x77, 0x40, 0x2003) := by decide

theorem test_L14_loda :
    after (poke (poke (code [0x0D, 0xE1, 0x00] { State.reset with bank0 := bank 0x02 0x00 0x00 }) 0x0100 [0x22, 0x00]) 0x2202 [0x44])
      (fun t => (t.r0, t.psl, t.pc)) =
      some (0x44, 0x40, 0x0003) := by decide

theorem test_L17_strz :
    after (code [0xC3] { State.reset with r0 := 0x12, psl := 0x10 })
      (fun t => (t.bank1.r3, t.psl, t.pc)) =
      some (0x12, 0x10, 0x0001) := by decide

theorem test_L18_strr :
    after (code [0xC9, 0x02] { State.reset with bank0 := bank 0x5A 0x00 0x00, pc := 0x0100 })
      (fun t => (t.peek 0x0104, t.pc)) =
      some (0x5A, 0x0102) := by decide

theorem test_L20_strr :
    after (code [0xCA, 0x7E] { State.reset with bank0 := bank 0x00 0xC0 0x00, pc := 0x0100 })
      (fun t => (t.peek 0x0100, t.pc)) =
      some (0xC0, 0x0102) := by decide

theorem test_L22_stra :
    after (code [0xCF, 0x21, 0x00] { State.reset with r0 := 0xEE, bank0 := bank 0x00 0x00 0x0F })
      (fun t => (t.bank0.r3, t.peek 0x0110, t.pc)) =
      some (0x10, 0xEE, 0x0003) := by decide

theorem test_L23_stra :
    after (poke (code [0xCE, 0x81, 0x00] { State.reset with bank0 := bank 0x00 0x21 0x00 }) 0x0100 [0x7F, 0xFF])
      (fun t => (t.peek 0x7FFF, t.pc)) =
      some (0x21, 0x0003) := by decide

/-! Vectors I of 95_test_vectors.md: input and output. -/

theorem test_I1_redc :
    after (code [0x30] { State.reset with inputs := [0x80] })
      (fun t => (t.r0, t.psl, t.events, t.pc)) =
      some (0x80, 0x80, [.ioRead .ctrl 0x80], 0x0001) := by decide

theorem test_I2_redd :
    after (code [0x71] { State.reset with bank0 := bank 0x55 0x00 0x00, psl := 0x40, inputs := [0x00] })
      (fun t => (t.bank0.r1, t.psl, t.events, t.pc)) =
      some (0x00, 0x00, [.ioRead .data 0x00], 0x0001) := by decide

theorem test_I3_rede :
    after (code [0x56, 0x7F] { State.reset with inputs := [0x01] })
      (fun t => (t.bank0.r2, t.psl, t.events, t.pc)) =
      some (0x01, 0x40, [.ioRead (.ext 0x7F) 0x01], 0x0002) := by decide

theorem test_I4_wrtc :
    after (code [0xB0] { State.reset with r0 := 0xAA })
      (fun t => (t.events, t.pc)) =
      some ([.ioWrite .ctrl 0xAA], 0x0001) := by decide

theorem test_I5_wrtd :
    after (code [0xF3] { State.reset with bank1 := bank 0x00 0x00 0x55, psl := 0x10 })
      (fun t => (t.events, t.pc)) =
      some ([.ioWrite .data 0x55], 0x0001) := by decide

theorem test_I6_wrte :
    after (code [0xD5, 0xFF] { State.reset with bank0 := bank 0x01 0x00 0x00 })
      (fun t => (t.events, t.pc)) =
      some ([.ioWrite (.ext 0xFF) 0x01], 0x0002) := by decide

/-! Vectors T of 95_test_vectors.md: rotate. -/

theorem test_T3_rrl :
    after (code [0xD1] { State.reset with bank0 := bank 0x00 0x00 0x00, psl := 0x09 })
      (fun t => (t.bank0.r1, t.psl, t.pc)) =
      some (0x01, 0x08, 0x0001) := by decide

theorem test_T5_rrr :
    after (code [0x53] { State.reset with bank0 := bank 0x00 0x00 0x80, psl := 0x09 })
      (fun t => (t.bank0.r3, t.psl, t.pc)) =
      some (0xC0, 0x08, 0x0001) := by decide

/-! Vectors V of 95_test_vectors.md: the other values of the parameters. -/

theorem test_V1_bcta :
    after (code [0x1F, 0x12, 0x34] { State.reset with psl := 0x00, params := { Config.defaults with cond3 := .literal } })
      (fun t => (t.pc)) =
      some (0x0003) := by decide

theorem test_V3_retc :
    after (code [0x17] { State.reset with psu := 0x01, psl := 0x40, ras := State.reset.ras.set 0 0x0123, params := { Config.defaults with cond3 := .literal } })
      (fun t => (t.psu, t.pc)) =
      some (0x01, 0x0001) := by decide

theorem test_V4_ppsu :
    after (code [0x76, 0xFF] { State.reset with psu := 0x00, params := { Config.defaults with psu43 := .storage } })
      (fun t => (t.psu, t.pc)) =
      some (0x7F, 0x0002) := by decide

theorem test_V6_strz :
    after (code [0xC1] { State.reset with r0 := 0x80, psl := 0x40, params := { Config.defaults with flagProfile := .manual } })
      (fun t => (t.bank0.r1, t.psl, t.pc)) =
      some (0x80, 0x80, 0x0001) := by decide

theorem test_V8_spsl :
    after (code [0x13] { State.reset with psl := 0x15, params := { Config.defaults with flagProfile := .manual } })
      (fun t => (t.r0, t.psl, t.pc)) =
      some (0x15, 0x55, 0x0001) := by decide

theorem test_V10_rrl :
    after (code [0xD1] { State.reset with bank0 := bank 0x50 0x00 0x00, psl := 0x08, params := { Config.defaults with flagProfile := .manual } })
      (fun t => (t.bank0.r1, t.psl, t.pc)) =
      some (0xA0, 0xAC, 0x0001) := by decide

theorem test_V11_rrr :
    after (code [0x53] { State.reset with bank0 := bank 0x00 0x00 0x80, psl := 0x09, params := { Config.defaults with flagProfile := .manual } })
      (fun t => (t.bank0.r3, t.psl, t.pc)) =
      some (0xC0, 0x88, 0x0001) := by decide

/-! Vectors X of 95_test_vectors.md: the interrupt; and reset (R390), the wait state (R375), RESET before INTREQ (R355). -/

theorem test_X1_interrupt :
    after (requested 0x08 0x02 0x0123) (fun t => (t.psu, t.ras[2], t.pc, t.events)) =
      some (0x23, 0x0123, 0x0008, [.intAck 0x08]) := by decide

theorem test_X2_interrupt_indirect :
    after (poke (requested 0x86 0x47 0x2123) 0x0006 [0x92, 0x00]) (fun t => (t.psu, t.ras[7], t.pc)) =
      some (0x60, 0x2123, 0x1200) := by decide

theorem test_X3_interrupt_negative :
    after (requested 0x7E 0x00 0x0011) (fun t => (t.psu, t.ras[0], t.pc)) = some (0x21, 0x0011, 0x1FFE) := by decide

theorem test_X4_interrupt_inhibited :
    after (code [0x76, 0x01] (requested 0x08 0x22 0x0123)) (fun t => (t.psu, t.pc)) = some (0x23, 0x0125) := by decide

theorem test_wait_holds :
    after { State.reset with waiting := true, pc := 0x0011 } (fun t => (t.waiting, t.pc)) = some (true, 0x0011) := by decide

theorem test_reset_before_interrupt :
    after { requested 0x08 0x00 0x0123 with
        pins := { sense := false, intreq := true, vector := 0x08, reset := true }, waiting := true }
      (fun t => (t.pc, t.waiting, t.events)) = some (0x0000, false, []) := by decide

theorem test_schedule_moves_pins :
    after (code [0xC0] { State.reset with schedule := [{ State.reset.pins with sense := true }] })
      (fun t => (t.pins.sense, t.schedule)) = some (true, []) := by decide

/-! Memory that is not RAM (R62, R63): a device's byte comes from outside and its accesses are seen; ROM ignores a store. -/

theorem test_device_read :
    after (code [0x0C, 0x03, 0x00] { mapped .device with inputs := [0x5A, 0x77] })
      (fun t => (t.r0, t.inputs, t.events)) = some (0x5A, [0x77], [.deviceRead 0x0300 0x5A]) := by decide

theorem test_device_write :
    after (code [0xCC, 0x03, 0x03] { mapped .device with r0 := 0xA5 })
      (fun t => (t.peek 0x0303, t.events)) = some (0x00, [.deviceWrite 0x0303 0xA5]) := by decide

theorem test_rom_ignores_store :
    after (code [0xCC, 0x03, 0x00] (poke { mapped .rom with r0 := 0xA5 } 0x0300 [0x11]))
      (fun t => t.peek 0x0300) = some 0x11 := by decide

/-- The word `ADDI,R0 0x01` placed where the next step fetches runs from reset (log 16). -/
theorem test_withFetchWord_runs :
    after (State.reset.withFetchWord 16 0x0184) (fun t => (t.r0, t.psl, t.pc)) = some (0x01, 0x40, 0x0002) := by decide

/-- The word is fetched even at an address that was a device, in a state that waits with a request pending. -/
theorem test_withFetchWord_device :
    after ({ mapped .device with pc := 0x0303, waiting := true, pins := (requested 0x08 0x00 0x0000).pins }.withFetchWord 16 0x0184)
      (fun t => (t.r0, t.pc)) = some (0x01, 0x0305) := by decide

/-! Witnesses: a concrete state and operands that meet the hypotheses of each obligation that has some. -/

theorem witness_DecodeEncodeRoundTrip :
    (Instr.andz .r1).wellFormed = true ∧ (Instr.bcfa 2 { indirect := true, addr := 0x7FFF }).wellFormed = true := by decide

theorem witness_EncodeDecodeRoundTrip : decode [0x84, 0x01, 0xC0] = .ok (.addi .r0 0x01, [0xC0]) := rfl

theorem witness_ReservedBytesAreExactlyTheTen : (0x10 : Byte) ∈ reservedBytes ∧ (0x12 : Byte) ∉ reservedBytes := by decide

theorem witness_OpcodeFixesLength :
    decode (0x0C :: [0x03, 0x00, 0xC0]) = .ok (.loda .r0 { indirect := false, index := .plain, addr := 0x0300 }, [0xC0]) ∧
    decode (0x0C :: [0xFF, 0xFF]) = .ok (.loda .r0 { indirect := true, index := .indexed, addr := 0x1FFF }, []) :=
  ⟨rfl, rfl⟩

/-- An instruction of two bytes in RAM at the end of a page, executing: both clauses. -/
theorem witness_StepRunsDecodedInstruction :
    let s := code [0x84, 0x01] { State.reset with pc := 0x1FFF }
    let m1 := s.memRead s.pc
    let m2 := m1.2.memRead (s.nextAddr 1)
    let m3 := m2.2.memRead (s.nextAddr 2)
    s.Executes ∧ decode [m1.1, m2.1, m3.1] = .ok (.addi .r0 0x01, [0x00]) ∧
      decode s.codeBytes = .ok (.addi .r0 0x01, [0x00]) ∧
      ∀ k < instrLength (.addi .r0 0x01), s.plainAt (s.nextAddr k) = true :=
  ⟨⟨rfl, rfl, rfl⟩, rfl, rfl, by decide⟩

/-- The first clause alone: the operand byte comes from a device. -/
theorem witness_StepRunsDecodedInstruction_device :
    let s := { poke { mapped .device with pc := 0x02FF } 0x02FF [0x84] with inputs := [0x01, 0x02] }
    let m1 := s.memRead s.pc
    let m2 := m1.2.memRead (s.nextAddr 1)
    let m3 := m2.2.memRead (s.nextAddr 2)
    s.Executes ∧ decode [m1.1, m2.1, m3.1] = .ok (.addi .r0 0x01, [0x02]) ∧ s.plainAt (s.nextAddr 1) = false :=
  ⟨⟨rfl, rfl, rfl⟩, rfl, rfl⟩

/-- A state that stops and one that does not. -/
theorem witness_StopsOnlyOnReservedOpcodes :
    (let s := code [0xC4] State.reset
     s.Executes ∧ (s.memRead s.pc).1 ∈ reservedBytes) ∧
    (let s := code [0xC0] State.reset
     s.Executes ∧ (s.memRead s.pc).1 ∉ reservedBytes) :=
  ⟨⟨⟨rfl, rfl, rfl⟩, by decide⟩, ⟨⟨rfl, rfl, rfl⟩, by decide⟩⟩

/-- The indirect vector; the direct one is vector X1. -/
theorem witness_InterruptEntryEffect :
    let s := poke (requested 0x86 0x47 0x2123) 0x0006 [0x92, 0x00]
    s.pins.reset = false ∧ s.pins.intreq = true ∧ psuII s.psu = false := by decide

theorem witness_InhibitedRequestIsIgnored :
    (let s := { requested 0x08 0x22 0x0123 with waiting := true }
     s.pins.reset = false ∧ psuII s.psu = true ∧ s.waiting = true) ∧
    (let s := code [0xC0] (requested 0x08 0x22 0x0123)
     s.pins.reset = false ∧ psuII s.psu = true ∧ s.waiting = false ∧ s.fetch = .instr .nop s) := by decide

theorem witness_WaitStateHolds :
    (let s := { State.reset with waiting := true }
     s.pins.reset = false ∧ s.waiting = true ∧ s.pins.intreq = false) ∧
    (let s := { requested 0x08 0x22 0x0123 with waiting := true }
     s.pins.reset = false ∧ s.waiting = true ∧ psuII s.psu = true) := by decide

theorem witness_ResetEffect :
    ({ State.reset with pins := { State.reset.pins with reset := true }, waiting := true, psu := 0x67 } : State).pins.reset =
      true := by decide

theorem witness_StepAdvancesPinsAndKeepsParameters :
    (let s := code [0xC0] State.reset
     (∃ t, step s = .next t) ∧ s.schedule = []) ∧
    (let s := code [0xC0] { State.reset with schedule := [{ State.reset.pins with intreq := true }] }
     (∃ t, step s = .next t) ∧ s.schedule = { State.reset.pins with intreq := true } :: []) :=
  ⟨⟨⟨_, rfl⟩, rfl⟩, ⟨⟨_, rfl⟩, rfl⟩⟩

/-- A store by a state that satisfies the invariant with memory listed and every stored bit of PSU set. -/
theorem witness_StepKeepsInvariant :
    let s := code [0xCC, 0x03, 0x00] { State.reset with r0 := 0xA5, psu := 0x67 }
    s.Inv ∧ ∃ t, step s = .next t :=
  ⟨by decide, _, rfl⟩

theorem witness_FlagColumnBoundsPslWrites :
    let s := { State.reset with psl := 0x08 }
    s.params.flagProfile = .card ∧ writesPsl (.rrl .r1) = false ∧ (∃ t, exec (.rrl .r1) s = .next t) ∧
      writesPsl (.addi .r1 0xFF) = false ∧ ∃ t, exec (.addi .r1 0xFF) s = .next t :=
  ⟨rfl, rfl, ⟨_, rfl⟩, rfl, ⟨_, rfl⟩⟩

theorem witness_OnlyStoresWriteMemory :
    isStore (.loda .r1 { indirect := true, index := .autoIncrement, addr := 0x0300 }) = false ∧
      ∃ t, exec (.loda .r1 { indirect := true, index := .autoIncrement, addr := 0x0300 }) State.reset = .next t :=
  ⟨rfl, _, rfl⟩

theorem witness_OnlyCallsWriteStack : isCall (.retc 3) = false ∧ ∃ t, exec (.retc 3) State.reset = .next t :=
  ⟨rfl, _, rfl⟩

/-- One instruction for each of the three clauses. -/
theorem witness_PsuWriters :
    (writesPsu .spsu = false ∧ isCall .spsu = false ∧ isReturn .spsu = false ∧ ∃ t, exec .spsu State.reset = .next t) ∧
    (writesPsu (.bsta 3 { indirect := false, addr := 0x0500 }) = false ∧
      isCall (.bsta 3 { indirect := false, addr := 0x0500 }) = true ∧
      ∃ t, exec (.bsta 3 { indirect := false, addr := 0x0500 }) State.reset = .next t) ∧
    (writesPsu (.rete 3) = false ∧ ∃ t, exec (.rete 3) { State.reset with psu := 0x22 } = .next t) :=
  ⟨⟨rfl, rfl, rfl, _, rfl⟩, ⟨rfl, rfl, _, rfl⟩, rfl, _, rfl⟩

theorem witness_OnlyHaltWaits :
    (∃ t, exec .halt State.reset = .next t) ∧
    (∃ t, exec .nop { State.reset with waiting := true } = .next t) ∧ Instr.nop ≠ .halt :=
  ⟨⟨_, rfl⟩, ⟨_, rfl⟩, by decide⟩

theorem witness_StraightLineAdvances :
    isBranch (.loda .r1 { indirect := false, index := .plain, addr := 0 }) = false ∧
      isCall (.loda .r1 { indirect := false, index := .plain, addr := 0 }) = false ∧
      isReturn (.loda .r1 { indirect := false, index := .plain, addr := 0 }) = false ∧
      ∃ t, exec (.loda .r1 { indirect := false, index := .plain, addr := 0 }) { State.reset with pc := 0x1FFE } = .next t :=
  ⟨rfl, rfl, rfl, _, rfl⟩

theorem witness_UnselectedBankKept : Reg.r3 ≠ .r0 ∧ ∃ t, exec (.lodi .r3 0x55) State.reset = .next t :=
  ⟨by decide, _, rfl⟩

theorem witness_UnselectedBankUnseen :
    (pslRS State.reset.psl = false ∧ ∃ t, exec (.addz .r1) State.reset = .next t) ∧
    (pslRS ({ State.reset with psl := 0x10 } : State).psl = true ∧
      ∃ t, exec (.addz .r1) { State.reset with psl := 0x10 } = .next t) :=
  ⟨⟨rfl, _, rfl⟩, rfl, _, rfl⟩

theorem witness_StackSeenByReturnsAlone :
    isReturn (.bsta 3 { indirect := false, addr := 0x0500 }) = false ∧
      ∃ t, exec (.bsta 3 { indirect := false, addr := 0x0500 }) { State.reset with psu := 0x07 } = .next t :=
  ⟨rfl, _, rfl⟩

/-- Each kind of address, at the first and the last address of its region and next to it. -/
theorem witness_MemoryReadEffect :
    (mapped .rom).kindAt 0x0300 = .rom ∧ (mapped .rom).kindAt 0x02FF = .ram ∧ (mapped .rom).kindAt 0x0304 = .ram ∧
    (mapped .empty).kindAt 0x0303 = .empty ∧
    ({ mapped .device with inputs := [0x5A] }).kindAt 0x0300 = .device ∧
    ({ mapped .device with inputs := [0x5A] }).inputs = 0x5A :: [] ∧
    (mapped .device).kindAt 0x0303 = .device ∧ (mapped .device).inputs = [] := by decide

theorem witness_MemoryWriteEffect :
    (mapped .rom).kindAt 0x7FFF = .ram ∧ Memory.wf (mapped .rom).mem ∧ (mapped .rom).kindAt 0x0303 = .rom ∧
    (mapped .empty).kindAt 0x0300 = .empty ∧ (mapped .device).kindAt 0x0300 = .device ∧
    (0x02FF : Addr) ≠ 0x0300 := by decide

/-- The direct and the indirect form, at the end of a page and at both ends of the displacement. -/
theorem witness_RelativeAddresses :
    ({ indirect := false, disp := 0x3F } : RelOperand).indirect = false ∧
    ({ indirect := true, disp := 0x40 } : RelOperand).indirect = true ∧
    stepInPage ({ State.reset with pc := 0x3FFE } : State).pc.toNat (2 + (0x40 : BitVec 7).toInt) = 0x3FC0 := by decide

/-- Both forms, at the last address. -/
theorem witness_BranchAddresses :
    ({ indirect := false, addr := 0x7FFF } : BranchOperand).indirect = false ∧
    ({ indirect := true, addr := 0x7FFF } : BranchOperand).indirect = true ∧
    (({ State.reset with bank0 := bank 0x00 0x00 0x02 } : State).indexedBranchEA
      { indirect := false, addr := 0x7FFF }).1.toNat = 1 := by decide

/-- Each index control, where the index register is at the end of its range. -/
theorem witness_AbsoluteAddresses :
    let s := { State.reset with bank0 := bank 0xFF 0x00 0x02 }
    (s.absEA .r1 { indirect := false, index := .plain, addr := 0x1FFF }).ea = 0x1FFF ∧
    (s.absEA .r1 { indirect := false, index := .autoIncrement, addr := 0x1FFF }).ea = 0x1FFF ∧
    (s.absEA .r2 { indirect := false, index := .autoDecrement, addr := 0x1FFF }).ea = 0x00FE ∧
    (s.absEA .r3 { indirect := false, index := .indexed, addr := 0x1FFF }).ea = 0x0001 := by decide

theorem witness_OperandForms :
    (State.reset.operandA .r1 { indirect := false, index := .autoIncrement, addr := 0x0300 }).n ≠ .r1 ∧
    ({ indirect := false, index := .plain, addr := 0x0300 } : AbsOperand).index = .plain := by decide

/-- The sums where carry, digit carry and overflow turn, with and without the carry in; the register operated on is R0. -/
theorem witness_AddEffect :
    let s := { State.reset with r0 := 0x7F, psl := 0x09 }
    carryIn s = 1 ∧ carryIn State.reset = 0 ∧ ((Form.imm .r0 0x80).operand s).a.toNat + 0x80 + carryIn s = 256 ∧
    ((Form.imm .r0 0x00).operand s).a.toInt + 0 + carryIn s = 128 := by decide

theorem witness_SubtractEffect :
    let s := { State.reset with r0 := 0x80, psl := 0x08 }
    borrowIn s = 1 ∧ borrowIn { s with psl := 0x09 } = 0 ∧ borrowIn State.reset = 0 ∧
    ((Form.imm .r0 0x00).operand s).a.toInt - 0 - borrowIn s = -129 := by decide

/-- The three orders, signed and unsigned. -/
theorem witness_CompareEffect :
    let s := { State.reset with r0 := 0x80 }
    ((Form.imm .r0 0x7F).operand s).a.toInt < (0x7F : Byte).toInt ∧ pslCOM s.psl = false ∧
    (0x7F : Byte).toNat < ((Form.imm .r0 0x7F).operand { s with psl := 0x02 }).a.toNat ∧ pslCOM 0x02 = true ∧
    ((Form.imm .r0 0x80).operand s).a.toInt = (0x80 : Byte).toInt := by decide

theorem witness_DecimalAdjustEffect :
    State.reset.params.flagProfile = .card ∧ manual.params.flagProfile = .manual := by decide

/-- The largest packed number, and a pair whose sum is 100. -/
theorem witness_DecimalArithmetic :
    let s := { State.reset with bank0 := bank 0x99 0x00 0x00 }
    99 < 100 ∧ 1 < 100 ∧ pslWC s.psl = false ∧ s.reg .r1 = BitVec.ofNat 8 (packed 99) := by decide

theorem witness_TestMaskEffect :
    AllSelected 0xC3 0x81 ∧ ¬AllSelected 0x80 0x81 ∧ AllSelected 0x00 0x00 := by
  unfold AllSelected
  decide

theorem witness_StoreEffect :
    (mapped .rom).kindAt ((mapped .rom).absEA .r0 { indirect := false, index := .plain, addr := 0x0304 }).ea = .ram ∧
    Memory.wf (mapped .rom).mem ∧
    (mapped .rom).kindAt ((mapped .rom).absEA .r0 { indirect := false, index := .plain, addr := 0x0303 }).ea = .rom ∧
    (mapped .device).kindAt ((mapped .device).absEA .r0 { indirect := false, index := .plain, addr := 0x0300 }).ea =
      .device ∧ (0x0300 : Addr) ≠ 0x0304 := by decide

theorem witness_StoreRegisterZeroEffect :
    State.reset.params.flagProfile = .card ∧ manual.params.flagProfile = .manual := by decide

/-- The second instruction stands right after the first. -/
theorem witness_StoreThenLoad :
    let s := { State.reset with r0 := 0xA5, pc := 0x2000 }
    Memory.wf s.mem ∧ s.kindAt (samePage s.pc 0x0300) = .ram ∧
    ∃ t, exec (.stra .r0 { indirect := false, index := .plain, addr := 0x0300 }) s = .next t ∧
      (t.mem = t.mem ∧ t.params = t.params ∧ samePage t.pc 0x0300 = samePage s.pc 0x0300) ∧
      ∃ v, exec (.loda .r0 { indirect := false, index := .plain, addr := 0x0300 }) t = .next v :=
  ⟨by decide, rfl, _, rfl, ⟨rfl, rfl, by decide⟩, _, rfl⟩

theorem witness_StoreIsFetched :
    let s := { State.reset with r0 := 0xC0 }
    Memory.wf s.mem ∧ s.kindAt (s.nextAddr 2) = .ram ∧
      ∃ t, exec (.strr .r0 { indirect := false, disp := 0 }) s = .next t :=
  ⟨by decide, rfl, _, rfl⟩

/-- Taken and not taken, d = 3 under both values of `COND3`. -/
theorem witness_ConditionalBranches :
    CondHolds State.reset 0 ∧ ¬CondHolds State.reset 1 ∧ CondHolds State.reset 3 ∧
    ¬CondHolds { State.reset with params := { Config.defaults with cond3 := .literal } } 3 ∧
    pslCC State.reset.psl ≠ 1 ∧ ¬pslCC State.reset.psl ≠ 0 := by
  unfold CondHolds
  decide

theorem witness_ConditionsAreComplementary :
    let s := { State.reset with psl := 0x40 }
    (2 : Cond) ≠ 3 ∧
    (∃ t, exec (.bctr 2 { indirect := false, disp := 0x05 }) s = .next t) ∧
    (∃ u, exec (.bcfr 2 { indirect := false, disp := 0x05 }) s = .next u) ∧
    (∃ t, exec (.bcta 1 { indirect := true, addr := 0x0005 }) s = .next t) ∧
    ∃ u, exec (.bcfa 1 { indirect := true, addr := 0x0005 }) s = .next u :=
  ⟨by decide, ⟨_, rfl⟩, ⟨_, rfl⟩, ⟨_, rfl⟩, _, rfl⟩

/-- Registers that reach zero, leave it, and neither. -/
theorem witness_RegisterBranches :
    let s := { State.reset with bank0 := bank 0x01 0xFF 0x00 }
    s.reg .r1 ≠ 0 ∧ s.reg .r1 - 1 = 0 ∧ s.reg .r2 + 1 = 0 ∧ s.reg .r3 = 0 ∧ s.reg .r3 - 1 ≠ 0 ∧ s.reg .r3 + 1 ≠ 0 := by
  decide

/-- Calls taken and not taken; SP at the end of its range. -/
theorem witness_CallEffect :
    let s := { State.reset with psl := 0x40, psu := 0x07 }
    CondHolds s 1 ∧ ¬CondHolds s 0 ∧ pslCC s.psl ≠ 0 ∧ ¬pslCC s.psl ≠ 1 ∧ ¬s.reg .r1 ≠ 0 ∧
    ({ s with r0 := 0x01 } : State).reg .r0 ≠ 0 ∧ (6 : BitVec 3) ≠ psuSP s.psu := by
  unfold CondHolds
  decide

theorem witness_ReturnEffect :
    let s := { State.reset with psl := 0x40, psu := 0x20 }
    CondHolds s 1 ∧ CondHolds s 3 ∧ ¬CondHolds s 0 := by
  unfold CondHolds
  decide

/-- A call that pushes at the last place, and the return from it. -/
theorem witness_CallThenReturn :
    let i := Instr.bsta 3 { indirect := false, addr := 0x0500 }
    let s := { State.reset with psu := 0x07 }
    isCall i = true ∧ isReturn (.retc 3) = true ∧
    ∃ t, exec i s = .next t ∧ psuSP t.psu ≠ psuSP s.psu ∧ t.ras = t.ras ∧ psuSP t.psu = psuSP t.psu ∧
      ∃ v, exec (.retc 3) t = .next v ∧ psuSP v.psu ≠ psuSP t.psu :=
  ⟨rfl, rfl, _, rfl, by decide, rfl, rfl, _, rfl, by decide⟩

/-- Nine addresses: the second to the ninth are the eight that stand. -/
theorem witness_StackHoldsEightAddresses :
    let vs : List Addr := [1, 2, 3, 4, 5, 6, 7, 8, 9]
    (∃ h : 1 < vs.length, vs.length ≤ 1 + 8 ∧ vs[1] = 2) ∧ (∃ h : 8 < vs.length, vs.length ≤ 8 + 8 ∧ vs[8] = 9) :=
  ⟨⟨by decide, by decide, rfl⟩, ⟨by decide, by decide, rfl⟩⟩

theorem witness_InterruptReturnsAfterHalt :
    let p : Pins := { sense := false, intreq := true, vector := 0x10, reset := false }
    ∃ t, exec .halt State.reset = .next t ∧ psuII State.reset.psu = false ∧ p.reset = false ∧ p.intreq = true ∧
      ∃ u, step { t with pins := p, schedule := [] } = .next u ∧ u.ras = u.ras ∧ psuSP u.psu = psuSP u.psu ∧
        CondHolds u 3 ∧ ∃ v, exec (.rete 3) u = .next v :=
  ⟨_, rfl, rfl, rfl, rfl, _, rfl, rfl, rfl, .inl ⟨rfl, rfl⟩, _, rfl⟩

theorem witness_PslEffect :
    State.reset.params.flagProfile = .card ∧ manual.params.flagProfile = .manual := by decide

/-- Writable and other bits of PSU under both values of `PSU43`. -/
theorem witness_PsuEffect :
    PsuWritable .zero 2 ∧ PsuWritable .zero 6 ∧ ¬PsuWritable .zero 3 ∧ ¬PsuWritable .zero 4 ∧ ¬PsuWritable .zero 7 ∧
    PsuWritable .storage 3 ∧ PsuWritable .storage 4 ∧ ¬PsuWritable .storage 7 ∧
    State.reset.params.flagProfile = .card ∧ manual.params.flagProfile = .manual := by
  unfold PsuWritable
  decide

/-- SENSE is high when PSU is saved; PSU and SENSE have changed when it is restored. -/
theorem witness_StatusSaveRestore :
    let s := { State.reset with psl := 0x95, psu := 0x25, pins := { State.reset.pins with sense := true } }
    (∃ t, exec .spsl s = .next t ∧ ∃ u, exec .lpsl { t with psl := 0x00 } = .next u) ∧
    s.Inv ∧ ({ State.reset with r0 := 0xA5, psu := 0x42 } : State).Inv ∧
    ∃ t, exec .spsu s = .next t ∧ t.r0 = 0xA5 ∧ t.params = State.reset.params ∧
      ∃ u, exec .lpsu { State.reset with r0 := 0xA5, psu := 0x42 } = .next u :=
  ⟨⟨_, rfl, _, rfl⟩, by decide, by decide, _, rfl, rfl, rfl, _, rfl⟩

theorem witness_PortReadEffect :
    ({ State.reset with inputs := [0x80, 0x01] } : State).inputs = 0x80 :: [0x01] ∧ State.reset.inputs = [] := by decide

/-- WC = 0 and WC = 1, each under both flag profiles. -/
theorem witness_RotateEffect :
    pslWC State.reset.psl = false ∧ State.reset.params.flagProfile = .card ∧
    pslWC ({ manual with psl := 0x09 } : State).psl = true ∧
    ({ manual with psl := 0x09 } : State).params.flagProfile = .manual := by decide

theorem witness_RotatesAreInverse :
    let s := { State.reset with bank0 := bank 0x81 0x00 0x00, psl := 0x08 }
    (∃ t, exec (.rrl .r1) s = .next t ∧ ∃ u, exec (.rrr .r1) t = .next u) ∧
    (∃ t, exec (.rrr .r1) s = .next t ∧ ∃ u, exec (.rrl .r1) t = .next u) ∧ s.params.flagProfile = .card :=
  ⟨⟨_, rfl, _, rfl⟩, ⟨_, rfl, _, rfl⟩, rfl⟩

end Sys2Proof.Tests
end

section
/-! The proofs of the family 30_encoding.md: effective addresses of formats R and A (R103, R104, R107), and the one way the
machine stops (R128). -/

namespace Sys2Proof.Machine

/-! Relative addresses. -/

/-- The displacement counts from the next instruction, in its page (R103). -/
theorem relEA_target (s : State) (l : RelOperand) :
    TargetIs s l.indirect (stepInPage s.pc.toNat (2 + l.disp.toInt)) (s.relEA l) := by
  have direct : (inpage (s.nextAddr 2) (sext7 l.disp)).toNat = stepInPage s.pc.toNat (2 + l.disp.toInt) := by
    rw [inpage_toNat, nextAddr_toNat, stepInPage]
    have hd := sext7_toNat l.disp
    omega
  rw [← direct]
  exact targetIs_indirectIf s l.indirect _

/-- The displacement counts from address 0 of page 0, whatever pc is (R104). -/
theorem zeroRelEA_target (s : State) (l : RelOperand) :
    TargetIs s l.indirect (l.disp.toInt % 8192).toNat (s.zeroRelEA l) := by
  have direct : (inpage 0x0000 (sext7 l.disp)).toNat = (l.disp.toInt % 8192).toNat := by
    rw [inpage_eq_stepInPage _ _ _ (sext7_toNat l.disp)]
    simp [stepInPage]
  rw [← direct]
  exact targetIs_indirectIf s l.indirect _

/-- Settles O28: both addresses are an in-page step taken through `indirectIf`. -/
theorem relativeAddresses : Obligations.RelativeAddresses :=
  fun s l => ⟨relEA_target s l, zeroRelEA_target s l⟩

/-! Absolute addresses. -/

/-- The address before indexing: in the instruction's page, taken through its pointer if indirect (R107). -/
def State.absBase (s : State) (a : AbsOperand) : Addr × State :=
  s.indirectIf a.indirect (samePage s.pc a.addr)

theorem absBase_target (s : State) (a : AbsOperand) :
    TargetIs s a.indirect (s.pc.toNat / 8192 * 8192 + a.addr.toNat) (s.absBase a) := by
  rw [← samePage_toNat]
  exact targetIs_indirectIf s a.indirect _

/-- Without indexing `AbsEA` is the base address, and the register operated on is the operand's own (R107). -/
theorem absEA_of_plain (s : State) (r : Reg) {a : AbsOperand} (h : a.index = .plain) :
    s.absEA r a = { ea := (s.absBase a).1, n := r, s := (s.absBase a).2 } := by
  simp only [State.absEA, h, State.stepIndex, State.absBase]

/-- With indexing the index register, as its own step left it, is added in the base address's page, and the register operated
on is R0 (R107, R108). -/
theorem absEA_of_indexing (s : State) (r : Reg) {a : AbsOperand} (h : a.index ≠ .plain) :
    (s.absEA r a).ea.toNat = stepInPage (s.absBase a).1.toNat ((s.absEA r a).s.reg r).toNat ∧ (s.absEA r a).n = .r0 := by
  have added (e : Addr) (x : Byte) : (inpage e (x.setWidth 13)).toNat = stepInPage e.toNat x.toNat :=
    inpage_eq_stepInPage _ _ _ (by rw [BitVec.toNat_setWidth]; omega)
  unfold State.absEA State.absBase
  cases hx : a.index
  case plain => exact absurd hx h
  all_goals exact ⟨added _ _, rfl⟩

/-- A pointer read and then a write of register r touch no other register. -/
theorem regsKept_absBase_setReg (s : State) (r : Reg) (a : AbsOperand) (v : Byte) :
    RegsKept s ((s.absBase a).2.setReg r v) [r] := by
  intro b n hn
  have read : (s.absBase a).2.regAt b n = s.regAt b n :=
    regAt_congr (indirectIf_r0 ..) (indirectIf_bank0 ..) (indirectIf_bank1 ..) b n
  rw [regAt_setReg, read, if_neg]
  rintro ⟨rfl, hsel⟩
  obtain ⟨hr0, hbank⟩ := hn (List.mem_singleton_self n)
  rw [State.absBase, indirectIf_psl] at hsel
  exact hsel.elim hr0 hbank

/-- What indexing with a stepped register leaves, for the stepped value `v`: the register, the address indexed with it, R0 to
operate on, and beyond the registers nothing but the pointer read (R107, R109). -/
theorem absEA_of_stepped (s : State) (r : Reg) {a : AbsOperand} (h : a.index ≠ .plain) {v : Byte}
    (hs : (s.absEA r a).s = (s.absBase a).2.setReg r v) :
    ((s.absEA r a).s.reg r).toNat = v.toNat ∧ (s.absEA r a).ea.toNat = stepInPage (s.absBase a).1.toNat v.toNat ∧
      (s.absEA r a).n = .r0 ∧ RegsKept s (s.absEA r a).s [r] ∧
      { (s.absEA r a).s with r0 := s.r0, bank0 := s.bank0, bank1 := s.bank1 } = (s.absBase a).2 := by
  have hv : (s.absEA r a).s.reg r = v := by rw [hs, reg_setReg, if_pos rfl]
  obtain ⟨hea, hn⟩ := absEA_of_indexing s r h
  rw [hv] at hea
  refine ⟨by rw [hv], hea, hn, ?_, ?_⟩
  · rw [hs]
    exact regsKept_absBase_setReg s r a v
  · rw [hs]
    ext1 <;> simp [State.absBase]

/-- Settles O30, case by case on the index control. -/
theorem absoluteAddresses : Obligations.AbsoluteAddresses := by
  intro s r a
  refine ⟨s.absBase a, absBase_target s a, ?_, ?_, ?_, ?_⟩
  · intro hx
    rw [absEA_of_plain s r hx]
    exact ⟨rfl, rfl, rfl⟩
  · intro hx
    have value : (s.reg r + 1).toNat = ((s.reg r).toNat + 1) % 256 := BitVec.toNat_add ..
    rw [← value]
    exact absEA_of_stepped s r (by simp [hx]) (by rw [absEA_s, hx, State.stepIndex, reg_indirectIf]; rfl)
  · intro hx
    have value : (s.reg r - 1).toNat = ((s.reg r).toNat + 255) % 256 := by
      rw [BitVec.toNat_sub, Nat.add_comm]; rfl
    rw [← value]
    exact absEA_of_stepped s r (by simp [hx]) (by rw [absEA_s, hx, State.stepIndex, reg_indirectIf]; rfl)
  · intro hx
    have kept : (s.absEA r a).s = (s.absBase a).2 := by rw [absEA_s, hx]; rfl
    obtain ⟨hea, hn⟩ := absEA_of_indexing s r (a := a) (by simp [hx])
    rw [kept, State.absBase, reg_indirectIf] at hea
    exact ⟨hea, hn, kept⟩

/-! Stops. -/

/-- The opcode map leaves out the ten bytes of R128 and no others. -/
theorem shapeOf_eq_none_iff (op : Byte) : shapeOf op = none ↔ op ∈ reservedBytes := by
  rw [← Option.isNone_iff_eq_none]
  revert op
  decide

/-- A fetch finds a reserved byte exactly where the byte read at pc is one of the ten (R128). -/
theorem fetch_eq_reserved_iff (s : State) (op : Byte) :
    s.fetch = .reserved op ↔ (s.memRead s.pc).1 ∈ reservedBytes ∧ op = (s.memRead s.pc).1 := by
  rw [← shapeOf_eq_none_iff]
  unfold State.fetch
  cases hs : shapeOf (s.memRead s.pc).1 with
  | none => simp [hs, eq_comm]
  | some f => cases f <;> simp [hs]

/-- No instruction ends in a fault or a refusal. -/
theorem exec_eq_next (i : Instr) (s : State) : ∃ t, exec i s = .next t := by
  cases i <;> exact ⟨_, rfl⟩

/-- A step that executes a reserved byte faults with it; every other step answers a next state (R128, R355). -/
theorem step_fault_or_next (s : State) :
    ((s.Executes ∧ (s.memRead s.pc).1 ∈ reservedBytes) ∧ step s = .fault (.reservedOpcode (s.memRead s.pc).1)) ∨
    (¬(s.Executes ∧ (s.memRead s.pc).1 ∈ reservedBytes) ∧ ∃ t, step s = .next t) := by
  rcases step_cases s with ⟨hr, hs⟩ | ⟨-, ha, hs⟩ | ⟨-, -, hw, hs⟩ | ⟨he, op, hf, hs⟩ | ⟨-, i, t, hf, hs⟩
  · exact .inr ⟨fun ⟨⟨hr', _, _⟩, _⟩ => by simp [hr] at hr', _, hs⟩
  · exact .inr ⟨fun ⟨⟨_, ha', _⟩, _⟩ => by simp [ha] at ha', _, hs⟩
  · exact .inr ⟨fun ⟨⟨_, _, hw'⟩, _⟩ => by simp [hw] at hw', _, hs⟩
  · obtain ⟨hmem, rfl⟩ := (fetch_eq_reserved_iff s op).mp hf
    exact .inl ⟨⟨he, hmem⟩, hs⟩
  · obtain ⟨u, hu⟩ := exec_eq_next i t
    refine .inr ⟨fun ⟨_, hmem⟩ => ?_, u.tick, by rw [hs, hu]; rfl⟩
    have := (fetch_eq_reserved_iff s _).mpr ⟨hmem, rfl⟩
    simp [hf] at this

/-- Settles O7: the two outcomes of `step_fault_or_next` exclude each other. -/
theorem stopsOnlyOnReservedOpcodes : Obligations.StopsOnlyOnReservedOpcodes := by
  intro s
  unfold State.Safe
  rcases step_fault_or_next s with ⟨⟨he, hmem⟩, hs⟩ | ⟨hno, t, hs⟩
  · simp [hs, he, hmem, eq_comm]
  · refine ⟨fun r => ⟨fun h => by simp [hs] at h, fun ⟨he, hmem, _⟩ => absurd ⟨he, hmem⟩ hno⟩, ?_, ?_⟩
    · simp [hs]
    · exact ⟨fun _ => hno, fun _ => ⟨t, hs⟩⟩

end Sys2Proof.Machine
end

section
/-! The proofs of the family 40_arithmetic.md: what evaluating a form keeps (R109, R140), what an instruction of a form leaves,
the sum in numbers that ADD and SUB share (R142, R143), and the comparison (R141). -/

namespace Sys2Proof.Machine

/-! Frames through the plain updates. -/

/-- Letting one more register go weakens the frame. -/
theorem QuietFrame.cons {s t : State} {ns : List Reg} {p q : Byte} (h : QuietFrame s t ns p q) (r : Reg) :
    QuietFrame s t (r :: ns) p q := by
  obtain ⟨⟨regs, rest⟩, mem⟩ := h
  exact ⟨⟨fun b n hn => regs b n fun hmem => hn (List.mem_cons_of_mem r hmem), rest⟩, mem⟩

/-- A register write lets that register go, in the bank that the old state selects. -/
theorem QuietFrame.setReg {s t : State} {ns : List Reg} {p q : Byte} (h : QuietFrame s t ns p q)
    (hrs : pslRS t.psl = pslRS s.psl) (r : Reg) (v : Byte) : QuietFrame s (t.setReg r v) (r :: ns) p q := by
  obtain ⟨⟨regs, rest⟩, mem⟩ := h.cons r
  refine ⟨⟨fun b n hn => ?_, rest⟩, mem⟩
  rw [regAt_setReg, if_neg, regs b n hn]
  rintro ⟨rfl, hsel⟩
  obtain ⟨hr0, hbank⟩ := hn List.mem_cons_self
  rw [hrs] at hsel
  exact hsel.elim hr0 hbank

/-- A PSL written under a mask puts the mask into the frame. -/
theorem QuietFrame.setPsl {s t : State} {ns : List Reg} {p q m v : Byte} (h : QuietFrame s t ns p q)
    (hv : v &&& ~~~m = s.psl &&& ~~~m) : QuietFrame s (t.setPsl v) ns m q := by
  obtain ⟨⟨regs, -, rest⟩, mem⟩ := h
  exact ⟨⟨regs, hv, rest⟩, mem⟩

/-- `pc` stands in no frame. -/
theorem QuietFrame.advance {s t : State} {ns : List Reg} {p q : Byte} (h : QuietFrame s t ns p q) (k : Nat) :
    QuietFrame s (t.advance k) ns p q :=
  h

/-- A PSL written under a mask without bit 4 selects the same bank (R42). -/
theorem pslRS_eq_of_masked {v psl m : Byte} (hv : v &&& ~~~m = psl &&& ~~~m) (hm : m.getLsbD 4 = false) :
    pslRS v = pslRS psl := by
  have bit := congrArg (BitVec.getLsbD · 4) hv
  simpa only [pslRS, BitVec.getLsbD_and, BitVec.getLsbD_not, hm, Nat.reduceLT, decide_true, Bool.not_false, Bool.and_true]
    using bit

/-! What evaluating a form keeps. -/

@[simp] theorem Form.operand_pc (f : Form) (s : State) : (f.operand s).s.pc = s.pc := by
  cases f <;> simp [Form.operand]

@[simp] theorem Form.operand_psl (f : Form) (s : State) : (f.operand s).s.psl = s.psl := by
  cases f <;> simp [Form.operand]

/-- Form A changes no register but an index that it steps (R109). -/
theorem regsKept_operandA (s : State) (r : Reg) (a : AbsOperand) :
    RegsKept s (s.operandA r a).s (steppedIndex r a) := by
  have read (b : Bool) (n : Reg) : (s.operandA r a).s.regAt b n = (s.absEA r a).s.regAt b n :=
    regAt_congr (memRead_r0 ..) (memRead_bank0 ..) (memRead_bank1 ..) b n
  have base (b : Bool) (n : Reg) : (s.absBase a).2.regAt b n = s.regAt b n :=
    regAt_congr (indirectIf_r0 ..) (indirectIf_bank0 ..) (indirectIf_bank1 ..) b n
  intro b n hn
  rw [read, absEA_s]
  unfold steppedIndex at hn
  cases hx : a.index <;> rw [hx] at hn
  case plain | indexed => exact base b n
  case autoIncrement | autoDecrement => exact regsKept_absBase_setReg s r a _ b n hn

/-- Evaluating a form changes no register but a stepped index, no flag and no memory (R109, R140). -/
theorem Form.operand_quietFrame (f : Form) (s : State) : QuietFrame s (f.operand s).s f.stepped 0 0 := by
  have regs : RegsKept s (f.operand s).s f.stepped := by
    cases f with
    | regZero r => exact fun _ _ _ => rfl
    | imm r i => exact fun _ _ _ => rfl
    | rel r l => exact fun b n _ => regAt_congr (operandR_r0 ..) (operandR_bank0 ..) (operandR_bank1 ..) b n
    | abs r a => exact regsKept_operandA s r a
  refine ⟨⟨regs, ?_⟩, ?_⟩
  · cases f <;> simp [Form.operand]
  · unfold MemKept State.peek
    cases f <;> simp [Form.operand]

/-! What an instruction of a form leaves. -/

/-- What writing a result does to every register, where the flags keep the bank selected. -/
theorem Operand.reg_put (o : Operand) {x : AluResult} (hrs : pslRS x.psl = pslRS o.s.psl) (m : Reg) :
    (o.put x).reg m = if m = o.n then x.value else o.s.reg m := by
  rw [Operand.put, reg_setPsl, hrs, ← reg_setReg]
  rfl

/-- Writing a register with the value it holds changes nothing. -/
theorem setReg_reg_self (s : State) (r : Reg) : s.setReg r (s.reg r) = s := by
  ext1 <;> simp only [State.setReg, State.reg, State.regAt]
  all_goals cases r <;> cases pslRS s.psl <;> rfl

@[simp] theorem Operand.compare_psl (o : Operand) : o.compare.psl = compare8 o.s.psl o.a o.b := rfl

/-- A comparison keeps the register operated on (R141). -/
theorem Operand.reg_compare (o : Operand) : o.compare.reg o.n = o.a := by
  rw [Operand.compare, reg_setPsl, compare8, pslRS_withCC]
  rfl

/-- A comparison writes the register operated on with the value it holds. -/
theorem Operand.compare_eq_put (o : Operand) :
    o.compare = o.put { value := o.a, psl := compare8 o.s.psl o.a o.b } := by
  rw [Operand.put, Operand.a, setReg_reg_self]
  rfl

/-- An instruction that writes its result and the flags under a mask without RS leaves what its form says (R140). -/
theorem formDone_put (f : Form) (s : State) {x : AluResult} {mask : Byte} (hmask : mask.getLsbD 4 = false)
    (hx : x.psl &&& ~~~mask = s.psl &&& ~~~mask) :
    FormDone f s (((f.operand s).put x).advance f.length) mask := by
  have hrs : pslRS x.psl = pslRS (f.operand s).s.psl := by
    rw [Form.operand_psl]
    exact pslRS_eq_of_masked hx hmask
  have frame : QuietFrame s ((f.operand s).put x) ((f.operand s).n :: f.stepped) mask 0 :=
    ((f.operand_quietFrame s).setReg (by rw [Form.operand_psl]) _ _).setPsl hx
  refine ⟨?_, frame.advance _, fun m hm => ?_, rfl, rfl, rfl⟩
  · simp [State.nextAddr, Operand.put]
  · rw [reg_advance, Operand.reg_put _ hrs, if_neg hm]

/-! The sum that ADD and SUB share. -/

/-- The sum of two bytes and a carry, with its flags: ADD's of its operands, SUB's of the first operand and the complement of
the second (R142, R143). -/
def sum8 (psl a b : Byte) (cin : Nat) : AluResult :=
  let t := a.toNat + b.toNat + cin
  let value := BitVec.ofNat 8 t
  { value := value
    psl := sumFlags psl value (decide (255 < t)) (decide (15 < a.toNat % 16 + b.toNat % 16 + cin))
      (a.msb == b.msb && value.msb != a.msb) }

theorem add8_eq_sum8 (s : State) (a b : Byte) : add8 s.psl a b = sum8 s.psl a b (carryIn s) := by
  have cin : (if pslWC s.psl && pslC s.psl then 1 else 0) = carryIn s := by
    unfold carryIn
    cases pslWC s.psl <;> cases pslC s.psl <;> rfl
  simp only [add8, sum8, cin, gt_iff_lt]

/-- The signs of `a` and `b` differ exactly when those of `a` and the complement agree. -/
theorem sub8_eq_sum8 (s : State) (a b : Byte) : sub8 s.psl a b = sum8 s.psl a (~~~b) (1 - borrowIn s) := by
  have cin : (if pslWC s.psl && !pslC s.psl then 0 else 1) = 1 - borrowIn s := by
    unfold borrowIn
    cases pslWC s.psl <;> cases pslC s.psl <;> rfl
  have signs : (a.msb != b.msb) = (a.msb == (~~~b).msb) := by
    rw [BitVec.msb_not]
    cases a.msb <;> cases b.msb <;> rfl
  simp only [sub8, sum8, cin, signs, gt_iff_lt]

theorem carryIn_le_one (s : State) : carryIn s ≤ 1 := by
  unfold carryIn
  split <;> omega

theorem borrowIn_le_one (s : State) : borrowIn s ≤ 1 := by
  unfold borrowIn
  split <;> omega

/-- The complement as a signed number (R143). -/
theorem toInt_not (v : Byte) : (~~~v).toInt = -1 - v.toInt := by
  have := v.isLt
  rw [BitVec.toInt_eq_toNat_cond, BitVec.toInt_eq_toNat_cond, BitVec.toNat_not]
  split <;> split <;> omega

/-- Operands of one sign whose sum has the other are exactly those whose signed sum no byte holds (R44). -/
theorem overflow_iff (a b : Byte) {cin : Nat} (hc : cin ≤ 1) :
    (a.msb == b.msb && (BitVec.ofNat 8 (a.toNat + b.toNat + cin)).msb != a.msb) = true ↔
      a.toInt + b.toInt + cin < -128 ∨ 127 < a.toInt + b.toInt + cin := by
  have ha := a.isLt
  have hb := b.isLt
  simp only [Bool.and_eq_true, beq_iff_eq, bne_iff_ne, ne_eq, BitVec.msb_eq_decide, decide_eq_decide, BitVec.toNat_ofNat]
  rw [a.toInt_eq_toNat_cond, b.toInt_eq_toNat_cond]
  split <;> split <;> omega

/-- The sum and its flags in numbers (R142). -/
theorem sum8_says (psl a b : Byte) {cin : Nat} (hc : cin ≤ 1) :
    let x := sum8 psl a b cin
    x.value.toNat = (a.toNat + b.toNat + cin) % 256 ∧ (pslC x.psl = true ↔ 255 < a.toNat + b.toNat + cin) ∧
      (pslIDC x.psl = true ↔ 15 < a.toNat % 16 + b.toNat % 16 + cin) ∧
      (pslOVF x.psl = true ↔ a.toInt + b.toInt + cin < -128 ∨ 127 < a.toInt + b.toInt + cin) ∧
      CcSays (pslCC x.psl) x.value := by
  intro x
  obtain ⟨c, idc, ovf, cc⟩ := sumFlags_flags psl x.value (decide (255 < a.toNat + b.toNat + cin))
    (decide (15 < a.toNat % 16 + b.toNat % 16 + cin)) (a.msb == b.msb && x.value.msb != a.msb)
  refine ⟨BitVec.toNat_ofNat .., ?_, ?_, ?_, ?_⟩
  · exact (congrArg (· = true) c).to_iff.trans decide_eq_true_iff
  · exact (congrArg (· = true) idc).to_iff.trans decide_eq_true_iff
  · exact (congrArg (· = true) ovf).to_iff.trans (overflow_iff a b hc)
  · exact cc ▸ ccOf_says x.value

/-- The sum flags stay inside their mask: bits 1, 3 and 4 are COM, WC and RS (R38). -/
theorem sumFlags_masked (psl v : Byte) (c idc ovf : Bool) :
    sumFlags psl v c idc ovf &&& ~~~0xE5#8 = psl &&& ~~~0xE5#8 := by
  obtain ⟨rs, wc, com⟩ := sumFlags_control psl v c idc ovf
  refine masked_eq fun k hk hm => ?_
  have control : k = 1 ∨ k = 3 ∨ k = 4 := by
    revert k
    decide
  rcases control with rfl | rfl | rfl
  · exact com
  · exact wc
  · exact rs

/-- What ADD and SUB do with the sum: register n, the flags, the frame. -/
theorem sum8_effect (f : Form) (s : State) (b : Byte) (cin : Nat) :
    let o := f.operand s
    let x := sum8 s.psl o.a b cin
    let t := (o.put x).advance f.length
    t.reg o.n = x.value ∧ t.psl = x.psl ∧ FormDone f s t 0xE5 := by
  intro o x t
  have kept : x.psl &&& ~~~0xE5#8 = s.psl &&& ~~~0xE5#8 := sumFlags_masked ..
  have hrs : pslRS x.psl = pslRS o.s.psl := by
    rw [Form.operand_psl]
    exact pslRS_eq_of_masked kept rfl
  exact ⟨by rw [reg_advance, Operand.reg_put o hrs, if_pos rfl], rfl, formDone_put f s rfl kept⟩

/-! The three instructions, each in its four forms. -/

/-- `Add8` of the form's operands, then the next instruction (R142). -/
theorem exec_add (f : Form) (s : State) :
    exec f.add s = .next (((f.operand s).put (sum8 s.psl (f.operand s).a (f.operand s).b (carryIn s))).advance f.length) := by
  rw [← add8_eq_sum8, ← f.operand_psl s]
  cases f <;> rfl

/-- `Sub8` of the form's operands, as the sum with the complement (R143). -/
theorem exec_sub (f : Form) (s : State) :
    exec f.sub s =
      .next (((f.operand s).put (sum8 s.psl (f.operand s).a (~~~(f.operand s).b) (1 - borrowIn s))).advance f.length) := by
  rw [← sub8_eq_sum8, ← f.operand_psl s]
  cases f <;> rfl

theorem exec_com (f : Form) (s : State) : exec f.com s = .next ((f.operand s).compare.advance f.length) := by
  cases f <;> rfl

/-- Settles O32: ADD is the sum of its operands and the carry in. -/
theorem addEffect : Obligations.AddEffect := by
  intro f s
  refine ⟨_, exec_add f s, ?_⟩
  obtain ⟨reg, psl, formDone⟩ := sum8_effect f s (f.operand s).b (carryIn s)
  refine ⟨?_, formDone⟩
  dsimp only
  rw [reg, psl]
  exact sum8_says _ _ _ (carryIn_le_one s)

/-- Settles O33: SUB is the sum with the complement, 255 - b or -1 - b, and the carry 1 - borrow, so that each bound on the
difference is the bound on that sum. -/
theorem subtractEffect : Obligations.SubtractEffect := by
  intro f s
  refine ⟨_, exec_sub f s, ?_⟩
  have hc : 1 - borrowIn s ≤ 1 := Nat.sub_le ..
  obtain ⟨reg, psl, formDone⟩ := sum8_effect f s (~~~(f.operand s).b) (1 - borrowIn s)
  refine ⟨?_, formDone⟩
  dsimp only
  rw [reg, psl]
  obtain ⟨value, c, idc, ovf, cc⟩ := sum8_says s.psl (f.operand s).a (~~~(f.operand s).b) hc
  have hb := borrowIn_le_one s
  have hlt := (f.operand s).b.isLt
  rw [BitVec.toNat_not] at value c idc
  rw [toInt_not] at ovf
  refine ⟨?_, c.trans ?_, idc.trans ?_, ovf.trans ?_, cc⟩
  · rw [value]
    omega
  all_goals omega

/-- The three outcomes of a comparison (R141). -/
theorem ccOfCompare_says (u v : Int) :
    (v < u → ccOfCompare u v = 0b01) ∧ (u = v → ccOfCompare u v = 0b00) ∧ (u < v → ccOfCompare u v = 0b10) := by
  unfold ccOfCompare
  refine ⟨fun h => if_pos h, ?_, fun h => ?_⟩
  · rintro rfl
    rw [if_neg (lt_irrefl u), if_pos rfl]
  · rw [if_neg (not_lt_of_gt h), if_neg h.ne]

/-- CC after a comparison: COM chooses how both operands are read (R141). -/
theorem pslCC_compare8 (psl a b : Byte) :
    pslCC (compare8 psl a b) =
      ccOfCompare (if pslCOM psl then (a.toNat : Int) else a.toInt) (if pslCOM psl then (b.toNat : Int) else b.toInt) := by
  rw [compare8, pslCC_withCC]
  split <;> rfl

/-- A write of CC stays inside its mask (R39). -/
theorem withCC_masked (psl : Byte) (cc : Cond) : withCC psl cc &&& ~~~0xC0#8 = psl &&& ~~~0xC0#8 := by
  refine masked_eq fun k hk hm => ?_
  have low : k < 6 := by
    revert k
    decide
  rw [getLsbD_withCC, if_pos low]

/-- Settles O34: a comparison writes CC alone, and the register operated on keeps its value. -/
theorem compareEffect : Obligations.CompareEffect := by
  intro f s
  have kept : compare8 (f.operand s).s.psl (f.operand s).a (f.operand s).b &&& ~~~0xC0#8 = s.psl &&& ~~~0xC0#8 := by
    rw [compare8, withCC_masked, Form.operand_psl]
  have formDone : FormDone f s ((f.operand s).compare.advance f.length) 0xC0 := by
    rw [Operand.compare_eq_put]
    exact formDone_put f s rfl kept
  refine ⟨_, exec_com f s, ?_, formDone⟩
  dsimp only
  rw [advance_psl, Operand.compare_psl, Form.operand_psl, pslCC_compare8]
  obtain ⟨greater, equal, less⟩ := ccOfCompare_says _ _
  exact ⟨greater, equal, less, Operand.reg_compare _, ((f.operand_quietFrame s).setPsl kept).advance _⟩

end Sys2Proof.Machine
end

section
/-! The proofs of the family 41_logical.md: what writing a result and CC from it leaves (R40, R170), the bitwise operations in
their forms (R170), and the tests under a mask (R171). -/

namespace Sys2Proof.Machine

/-! Results: loads and logical operations write register n and CC. -/

@[simp] theorem Operand.result_psl (o : Operand) (v : Byte) : (o.result v).psl = withCC o.s.psl (ccOf v) := rfl

/-- What `x[n] <- v; SetCC(x[n])` does to every register. -/
theorem Operand.reg_result (o : Operand) (v : Byte) (m : Reg) :
    (o.result v).reg m = if m = o.n then v else o.s.reg m :=
  o.reg_put (x := { value := v, psl := withCC o.s.psl (ccOf v) }) (pslRS_withCC ..) m

/-- What `x[n] <- v; SetCC(x[n])` and the next instruction leave: register n, CC, the frame (R40, R170). -/
theorem result_effect (f : Form) (s : State) (v : Byte) :
    let o := f.operand s
    let t := (o.result v).advance f.length
    t.reg o.n = v ∧ CcSays (pslCC t.psl) v ∧ FormDone f s t 0xC0 := by
  intro o t
  have kept : withCC o.s.psl (ccOf v) &&& ~~~0xC0#8 = s.psl &&& ~~~0xC0#8 := by
    rw [withCC_masked, Form.operand_psl]
  refine ⟨?_, ?_, formDone_put f s (x := { value := v, psl := withCC o.s.psl (ccOf v) }) rfl kept⟩
  · rw [reg_advance, Operand.reg_result, if_pos rfl]
  · rw [advance_psl, Operand.result_psl, pslCC_withCC]
    exact ccOf_says v

/-! The three bitwise operations, each in its four forms. -/

theorem exec_and (f : Form) (s : State) :
    exec f.and s = .next (((f.operand s).result ((f.operand s).a &&& (f.operand s).b)).advance f.length) := by
  cases f <;> rfl

theorem exec_eor (f : Form) (s : State) :
    exec f.eor s = .next (((f.operand s).result ((f.operand s).a ^^^ (f.operand s).b)).advance f.length) := by
  cases f <;> rfl

theorem exec_ior (f : Form) (s : State) :
    exec f.ior s = .next (((f.operand s).result ((f.operand s).a ||| (f.operand s).b)).advance f.length) := by
  cases f <;> rfl

/-- An instruction that ends with the result `v` does what the statement asks of a bitwise operation whose bits `v` has. -/
theorem bitwise_effect {f : Form} {s : State} {i : Instr} {v : Byte} {bit : Nat → Bool}
    (hexec : exec i s = .next (((f.operand s).result v).advance f.length)) (hbit : ∀ k, v.getLsbD k = bit k) :
    ∃ t, exec i s = .next t ∧ (∀ k < 8, (t.reg (f.operand s).n).getLsbD k = bit k) ∧
      CcSays (pslCC t.psl) (t.reg (f.operand s).n) ∧ FormDone f s t 0xC0 := by
  obtain ⟨reg, cc, formDone⟩ := result_effect f s v
  refine ⟨_, hexec, fun k _ => ?_, ?_, formDone⟩
  · rw [reg, hbit]
  · rw [reg]
    exact cc

/-- Settles O37: each operation is `result` of the byte with the operation's bits. -/
theorem logicalEffect : Obligations.LogicalEffect := fun f s =>
  ⟨bitwise_effect (exec_and f s) fun _ => BitVec.getLsbD_and,
    bitwise_effect (exec_eor f s) fun _ => BitVec.getLsbD_xor,
    bitwise_effect (exec_ior f s) fun _ => BitVec.getLsbD_or⟩

/-! Tests under a mask. -/

/-- A state keeps everything of itself. -/
theorem QuietFrame.refl (s : State) : QuietFrame s s [] 0 0 :=
  ⟨⟨fun _ _ _ => rfl, rfl, rfl, rfl, rfl, rfl, rfl⟩, fun _ => rfl, rfl⟩

/-- CC after a test: 00 when every selected bit is 1, else 10 (R171). -/
theorem pslCC_testMask (psl v m : Byte) :
    (AllSelected v m → pslCC (testMask psl v m) = 0b00) ∧ (¬AllSelected v m → pslCC (testMask psl v m) = 0b10) := by
  rw [testMask, pslCC_withCC, ← testMask_iff]
  exact ⟨fun h => if_pos h, fun h => if_neg h⟩

/-- An instruction of two bytes that ends with the test of `v` writes CC alone (R171). -/
theorem testMask_effect {s : State} {i : Instr} {v mask : Byte}
    (hexec : exec i s = .next ((s.setPsl (testMask s.psl v mask)).advance 2)) :
    ∃ t, exec i s = .next t ∧ (AllSelected v mask → pslCC t.psl = 0b00) ∧ (¬AllSelected v mask → pslCC t.psl = 0b10) ∧
      t.pc = s.nextAddr 2 ∧ QuietFrame s t [] 0xC0 0 ∧ SameTraffic s t := by
  obtain ⟨all, notAll⟩ := pslCC_testMask s.psl v mask
  have frame : QuietFrame s (s.setPsl (testMask s.psl v mask)) [] 0xC0 0 :=
    (QuietFrame.refl s).setPsl (withCC_masked ..)
  exact ⟨_, hexec, all, notAll, rfl, frame.advance 2, rfl, rfl, rfl⟩

/-- Settles O38: the three instructions differ in the byte they test, a register, PSL before CC is written, PSU as it reads. -/
theorem testMaskEffect : Obligations.TestMaskEffect := fun s mask =>
  ⟨fun r => testMask_effect (i := .tmi r mask) (v := s.reg r) rfl,
    testMask_effect (i := .tpsl mask) (v := s.psl) rfl,
    testMask_effect (i := .tpsu mask) (v := s.readPsu) rfl⟩

end Sys2Proof.Machine
end

section
/-! The proofs of the family 43_subroutine.md: what a push and a return leave of the frame (R51, R52), then calls and returns,
taken and not taken (R230, R231). -/

namespace Sys2Proof.Machine

/-! PSU under the writers of SP and II. -/

/-- Writing SP changes no bit of PSU but bits 2 to 0 (R35). -/
theorem withSP_masked (psu : Byte) (sp : BitVec 3) : withSP psu sp &&& ~~~0x07#8 = psu &&& ~~~0x07#8 := by
  have maskBits : ∀ k < 3, (0x07#8).getLsbD k = true := by decide
  refine masked_eq fun k _ hm => ?_
  rw [getLsbD_withSP, if_neg]
  intro hk
  simp [maskBits k hk] at hm

/-- Writing SP and then II changes no bit of PSU but bit 5 and bits 2 to 0 (R33, R35). -/
theorem withII_withSP_masked (psu : Byte) (sp : BitVec 3) (b : Bool) :
    withII (withSP psu sp) b &&& ~~~0x27#8 = psu &&& ~~~0x27#8 := by
  have maskBits : ∀ k < 8, (0x27#8).getLsbD k = false → k ≠ 5 ∧ ¬k < 3 := by decide
  refine masked_eq fun k hk hm => ?_
  obtain ⟨notII, notSP⟩ := maskBits k hk hm
  rw [withII, getLsbD_setBit _ _ (by decide), if_neg notII, getLsbD_withSP, if_neg notSP]

/-! Frames through address computations and the stack. -/

/-- Taking an address through its pointer changes nothing but the traffic (R101). -/
theorem indirectIf_quietFrame (s : State) (flag : Bool) (a : Addr) : QuietFrame s (s.indirectIf flag a).2 [] 0 0 := by
  have regs : RegsKept s (s.indirectIf flag a).2 [] :=
    fun b n _ => regAt_congr (indirectIf_r0 ..) (indirectIf_bank0 ..) (indirectIf_bank1 ..) b n
  refine ⟨⟨regs, ?_⟩, ?_⟩
  · simp
  · simp [MemKept, State.peek]

/-- A frame with no bit of PSU let go keeps PSU. -/
theorem QuietFrame.psu_eq {s t : State} {ns : List Reg} {p : Byte} (h : QuietFrame s t ns p 0) : t.psu = s.psu := by
  obtain ⟨⟨-, -, psu, -⟩, -⟩ := h
  have ones : ~~~(0 : Byte) = BitVec.allOnes 8 := rfl
  rwa [ones, BitVec.and_allOnes, BitVec.and_allOnes] at psu

/-- A push lets go of the stack and of SP (R51). -/
theorem QuietFrame.push {s t : State} {ns : List Reg} {p : Byte} (h : QuietFrame s t ns p 0) (v : Addr) :
    Frame s (t.push v) ns p 0x07 ∧ MemKept s (t.push v) := by
  have psu : (t.push v).psu &&& ~~~0x07#8 = s.psu &&& ~~~0x07#8 := by rw [push_psu, withSP_masked, h.psu_eq]
  obtain ⟨⟨regs, psl, -, rest⟩, mem, -⟩ := h
  exact ⟨⟨regs, psl, psu, rest⟩, mem⟩

/-- A write of pc and PSU lets go of the bits of PSU under the mask it is made with, and of nothing else. -/
theorem quietFrame_of_pc_psu {s : State} {m v : Byte} (hv : v &&& ~~~m = s.psu &&& ~~~m) (a : Addr) :
    QuietFrame s { s with pc := a, psu := v } [] 0 m :=
  ⟨⟨fun _ _ _ => rfl, rfl, hv, rfl, rfl, rfl, rfl⟩, fun _ => rfl, rfl⟩

/-! Calls. -/

/-- A call whose address computation changes nothing but the traffic pushes the next instruction's address and goes there
(R230, R51). -/
theorem called_call {s : State} {ea : State → Addr × State} {taken : Prop} (quiet : QuietFrame s (ea s).2 [] 0 0) (len : Nat)
    (ht : taken) : Called s (s.call len ea) taken len (ea s) := by
  have psu := quiet.psu_eq
  have ⟨_, _, ras⟩ := quiet
  obtain ⟨frame, mem⟩ := quiet.push (s.nextAddr len)
  have entry (k : BitVec 3) :
      rasEntry (s.call len ea).ras k = if k = psuSP s.psu then s.nextAddr len else rasEntry s.ras k := by
    rw [← psu, ← ras]
    exact rasEntry_push ..
  have sp : psuSP (s.call len ea).psu = psuSP s.psu + 1 := by
    rw [← psu]
    exact psuSP_withSP ..
  refine ⟨⟨fun _ => ⟨rfl, rfl, rfl, rfl⟩, absurd ht⟩, frame, mem, fun _ => ⟨sp, ?_, fun k hk => ?_⟩, absurd ht⟩
  · rw [entry, if_pos rfl]
  · rw [entry, if_neg hk]

/-- A call that depends on a condition: not taken, it goes on and pushes nothing (R230). -/
theorem called_callIf {s : State} {ea : State → Addr × State} {c : Bool} {taken : Prop}
    (quiet : QuietFrame s (ea s).2 [] 0 0) (len : Nat) (htaken : c = true ↔ taken) :
    Called s (s.callIf c len ea) taken len (ea s) := by
  cases c with
  | true => exact called_call quiet len (htaken.mp rfl)
  | false =>
    have hn : ¬taken := fun ht => by simpa using htaken.mpr ht
    obtain ⟨frame, mem, ras⟩ := quietFrame_of_pc_psu (s := s) (m := 0x07) rfl (s.nextAddr len)
    exact ⟨⟨fun ht => absurd ht hn, fun _ => ⟨rfl, rfl, rfl, rfl⟩⟩, frame, mem, fun ht => absurd ht hn, fun _ => ⟨ras, rfl⟩⟩

/-- Settles O48: the eight calls differ in their condition and in the pointer that their address is taken through. -/
theorem callEffect : Obligations.CallEffect := by
  intro s
  have nonzero (r : Reg) : (s.reg r != 0) = true ↔ s.reg r ≠ 0 := bne_iff_ne
  have quiet := indirectIf_quietFrame s
  exact ⟨fun d l => ⟨_, rfl, called_callIf (quiet ..) 2 (condTrue_iff s d)⟩,
    fun d b => ⟨_, rfl, called_callIf (quiet ..) 3 (condTrue_iff s d)⟩,
    fun d l => ⟨_, rfl, called_callIf (quiet ..) 2 (condFalse_iff s d)⟩,
    fun d b => ⟨_, rfl, called_callIf (quiet ..) 3 (condFalse_iff s d)⟩,
    fun r l => ⟨_, rfl, called_callIf (quiet ..) 2 (nonzero r)⟩,
    fun r b => ⟨_, rfl, called_callIf (quiet ..) 3 (nonzero r)⟩,
    fun b => ⟨_, rfl, called_call (quiet ..) 3 trivial⟩,
    fun l => ⟨_, rfl, called_call (quiet ..) 2 trivial⟩⟩

/-! Returns. -/

/-- A return whose PSU when taken is `v`: it pops SP and pc when its condition holds, else goes on (R231, R52). -/
theorem return_effect {i : Instr} {s : State} {d : Cond} {m v : Byte} (hsp : psuSP v = psuSP s.psu - 1)
    (hv : v &&& ~~~m = s.psu &&& ~~~m)
    (hexec : exec i s =
      .next (if s.condTrue d then { s with pc := rasEntry s.ras (psuSP s.psu - 1), psu := v } else s.advance 1)) :
    ∃ t, exec i s = .next t ∧ Returned s t (CondHolds s d) ∧ QuietFrame s t [] 0 m ∧ SameTraffic s t ∧
      (CondHolds s d → t.psu = v) := by
  refine ⟨_, hexec, ?_⟩
  rw [← condTrue_iff]
  cases s.condTrue d with
  | true =>
    exact ⟨⟨fun _ => ⟨hsp, rfl⟩, absurd rfl⟩, quietFrame_of_pc_psu hv _, ⟨rfl, rfl, rfl⟩, fun _ => rfl⟩
  | false =>
    exact ⟨⟨nofun, fun _ => ⟨rfl, rfl⟩⟩, quietFrame_of_pc_psu rfl _, ⟨rfl, rfl, rfl⟩, nofun⟩

/-- Settles O49: RETC taken writes SP alone, RETE SP and then II. -/
theorem returnEffect : Obligations.ReturnEffect := by
  intro d s
  have retcSP := psuSP_withSP s.psu (psuSP s.psu - 1)
  have reteSP := (psuSP_withII _ false).trans retcSP
  obtain ⟨t, retc, popped, frame, traffic, -⟩ := return_effect (i := .retc d) retcSP (withSP_masked ..) rfl
  obtain ⟨u, rete, popped', frame', traffic', psu⟩ := return_effect (i := .rete d) reteSP (withII_withSP_masked ..) rfl
  refine ⟨⟨t, retc, popped, frame, traffic⟩, u, rete, popped', frame', traffic', fun taken => ?_⟩
  rw [psu taken, psuII_withII]

end Sys2Proof.Machine
end

section
/-! The proofs of the family 60_exceptions.md: what interrupt entry saves, where it goes and what it keeps (R357, R358). -/

namespace Sys2Proof.Machine

/-- The state in which the vector byte is read as an operand: running, the request acknowledged (R357). -/
def State.acknowledged (s : State) : State :=
  { s with waiting := false, events := .intAck s.pins.vector :: s.events }

/-- The vector byte as an operand: bit 7 asks for the pointer, bits 6 to 0 are the displacement (R357). -/
def State.vectorOperand (s : State) : RelOperand :=
  { indirect := s.pins.vector.getLsbD 7, disp := s.pins.vector.extractLsb' 0 7 }

/-- Where interrupt entry goes, and the state after its pointer reads (R357). -/
def State.vectorTarget (s : State) : Addr × State :=
  s.acknowledged.zeroRelEA s.vectorOperand

/-! Finding the target leaves what entry saves and writes. -/

@[simp] theorem vectorTarget_psu (s : State) : s.vectorTarget.2.psu = s.psu := zeroRelEA_psu ..
@[simp] theorem vectorTarget_pc (s : State) : s.vectorTarget.2.pc = s.pc := zeroRelEA_pc ..
@[simp] theorem vectorTarget_ras (s : State) : s.vectorTarget.2.ras = s.ras := zeroRelEA_ras ..

/-! What entry writes (R358). -/

/-- Entry after the target is found: II, then the push of pc, then the jump. -/
theorem interruptEntry_eq (s : State) :
    s.interruptEntry =
      (({ s.vectorTarget.2 with psu := withII s.psu true } : State).push s.pc).setPc s.vectorTarget.1 := by
  rw [← vectorTarget_psu s, ← vectorTarget_pc s]
  rfl

theorem interruptEntry_pc (s : State) : s.interruptEntry.pc = s.vectorTarget.1 := rfl

theorem interruptEntry_psu (s : State) : s.interruptEntry.psu = withSP (withII s.psu true) (psuSP s.psu + 1) := by
  rw [interruptEntry_eq, setPc_psu, push_psu, psuSP_withII]

/-- The push stores the next instruction's address at SP and no other entry (R51). -/
theorem rasEntry_interruptEntry (s : State) (k : BitVec 3) :
    rasEntry s.interruptEntry.ras k = if k = psuSP s.psu then s.pc else rasEntry s.ras k := by
  rw [interruptEntry_eq, setPc_ras, rasEntry_push, psuSP_withII, vectorTarget_ras]

/-- Writing II and writing SP commute: they touch different bits (R33, R35). -/
theorem withSP_withII_comm (psu : Byte) (sp : BitVec 3) (b : Bool) :
    withSP (withII psu b) sp = withII (withSP psu sp) b := by
  refine BitVec.eq_of_getLsbD_eq fun k _ => ?_
  rw [withII, withII, getLsbD_withSP, getLsbD_setBit _ _ (by decide), getLsbD_setBit _ _ (by decide), getLsbD_withSP]
  by_cases hII : k = 5
  · subst hII
    rfl
  · rw [if_neg hII, if_neg hII]

/-- Entry's write of PSU: II is 1, SP one on modulo 8, every other bit as before (R358). -/
theorem interruptEntry_psu_effect (s : State) :
    psuII s.interruptEntry.psu = true ∧ psuSP s.interruptEntry.psu = psuSP s.psu + 1 ∧
      s.interruptEntry.psu &&& ~~~0x27#8 = s.psu &&& ~~~0x27#8 := by
  rw [interruptEntry_psu]
  refine ⟨?_, psuSP_withSP .., ?_⟩
  · rw [psuII_withSP, psuII_withII]
  · rw [withSP_withII_comm, withII_withSP_masked]

/-- Entry keeps the registers and memory: none of its operations writes them (R358). -/
theorem interruptEntry_keeps (s : State) : RegsKept s s.interruptEntry [] ∧ MemKept s s.interruptEntry := by
  refine ⟨fun b n _ => ?_, fun a => ?_⟩
  · exact regAt_congr (interruptEntry_r0 s) (interruptEntry_bank0 s) (interruptEntry_bank1 s) b n
  · rw [State.peek, interruptEntry_mem, State.peek]

/-- The step taken when a request meets II = 0 and no reset (R353, R354, R355). -/
theorem step_of_interrupt {s : State} (hreset : s.pins.reset = false) (hreq : s.pins.intreq = true)
    (hII : psuII s.psu = false) : step s = .next s.interruptEntry.tick := by
  have accepted : s.interruptAccepted = true := by rw [State.interruptAccepted, hreq, hII]; rfl
  rw [step, hreset, accepted]
  rfl

/-- Settles O8: the step is `interruptEntry`, which goes to the zero-page target of the vector byte and pushes pc. -/
theorem interruptEntryEffect : Obligations.InterruptEntryEffect := by
  intro s hreset hreq hII
  obtain ⟨psuII_set, sp, psuOther⟩ := interruptEntry_psu_effect s
  obtain ⟨regs, mem⟩ := interruptEntry_keeps s
  have target := zeroRelEA_target s.acknowledged s.vectorOperand
  refine ⟨s.interruptEntry, s.vectorTarget, step_of_interrupt hreset hreq hII, target, interruptEntry_pc s,
    ⟨rfl, rfl, rfl⟩, interruptEntry_waiting s, psuII_set, sp, psuOther, ?_, fun k hk => ?_, regs, interruptEntry_psl s, mem⟩
  · rw [rasEntry_interruptEntry, if_pos rfl]
  · rw [rasEntry_interruptEntry, if_neg hk]

end Sys2Proof.Machine
end

section
/-! The encoder and the decoder: the fields of the operand bytes, the two round trips by way of the opcode map, and what the
opcode byte alone says (R90 to R131). -/

namespace Sys2Proof

open Machine

/-! Fields. -/

/-- The low field of two in a row. -/
theorem extractLow_append {n m : Nat} (x : BitVec n) (y : BitVec m) : (x ++ y).extractLsb' 0 m = y := by
  refine BitVec.eq_of_getLsbD_eq fun i hi => ?_
  simp [BitVec.getLsbD_append, hi]

/-- The high field of two in a row. -/
theorem extractHigh_append {n m : Nat} (x : BitVec n) (y : BitVec m) : (x ++ y).extractLsb' m n = x := by
  refine BitVec.eq_of_getLsbD_eq fun i hi => ?_
  simp [BitVec.getLsbD_append, hi]

/-- Two fields in a row are the whole. -/
theorem extract_append_extract {n m : Nat} (x : BitVec (n + m)) : x.extractLsb' m n ++ x.extractLsb' 0 m = x := by
  refine BitVec.eq_of_getLsbD_eq fun i hi => ?_
  rw [BitVec.getLsbD_append]
  split
  · simp [*]
  · have : i - m < n := by omega
    have : m + (i - m) = i := by omega
    simp [*]

@[simp] theorem bits_regOfBits (d : BitVec 2) : (regOfBits d).bits = d := by
  revert d
  decide

@[simp] theorem indexOfBits_bits (x : IndexControl) : indexOfBits x.bits = x := by cases x <;> rfl

@[simp] theorem bits_indexOfBits (d : BitVec 2) : (indexOfBits d).bits = d := by
  revert d
  decide

/-- Byte 2 of a relative operand is read back (R102). -/
@[simp] theorem relOperand_byte2 (l : RelOperand) : relOperand l.byte2 = l := by
  obtain ⟨indirect, disp⟩ := l
  revert indirect disp
  decide

@[simp] theorem byte2_relOperand (b2 : Byte) : (relOperand b2).byte2 = b2 := by
  revert b2
  decide

/-- The flag, the index control and the high bits of a byte 2 of an operand `a` (R106). -/
theorem absByte2_fields (f : Bool) (x : BitVec 2) (hi : BitVec 5) :
    let b2 : Byte := BitVec.ofBool f ++ x ++ hi
    b2.getLsbD 7 = f ∧ b2.extractLsb' 5 2 = x ∧ b2.extractLsb' 0 5 = hi := by
  refine ⟨?_, BitVec.eq_of_getLsbD_eq fun i hi => ?_, extractLow_append _ hi⟩
  · rw [BitVec.getLsbD_append, BitVec.getLsbD_append]
    simp
  · rw [BitVec.getLsbD_extractLsb', BitVec.getLsbD_append, BitVec.getLsbD_append]
    simp [hi]

/-- Bytes 2 and 3 of an operand `a` are read back (R106). -/
@[simp] theorem absOperand_bytes (a : AbsOperand) : absOperand a.byte2 a.byte3 = a := by
  obtain ⟨indirect, index, addr⟩ := a
  obtain ⟨flag, control, high⟩ := absByte2_fields indirect index.bits (addr.extractLsb' 8 5)
  have whole : addr.extractLsb' 8 5 ++ addr.extractLsb' 0 8 = addr := extract_append_extract (n := 5) (m := 8) addr
  simp only [absOperand, AbsOperand.byte2, AbsOperand.byte3, flag, control, high, indexOfBits_bits, whole]

theorem bytes_absOperand (b2 b3 : Byte) : (absOperand b2 b3).byte2 = b2 ∧ (absOperand b2 b3).byte3 = b3 := by
  have fields : ∀ v : Byte, BitVec.ofBool (v.getLsbD 7) ++ v.extractLsb' 5 2 ++ v.extractLsb' 0 5 = v := by decide
  have high : (b2.extractLsb' 0 5 ++ b3).extractLsb' 8 5 = b2.extractLsb' 0 5 := extractHigh_append ..
  simp only [absOperand, AbsOperand.byte2, AbsOperand.byte3, bits_indexOfBits]
  exact ⟨by rw [high]; exact fields b2, extractLow_append ..⟩

/-- Bytes 2 and 3 of an operand `b` are read back (R110). -/
@[simp] theorem branchOperand_bytes (b : BranchOperand) : branchOperand b.byte2 b.byte3 = b := by
  obtain ⟨indirect, addr⟩ := b
  have flag (hi : BitVec 7) : (BitVec.ofBool indirect ++ hi).getLsbD 7 = indirect := by
    rw [BitVec.getLsbD_append]
    simp
  have whole : addr.extractLsb' 8 7 ++ addr.extractLsb' 0 8 = addr := extract_append_extract (n := 7) (m := 8) addr
  simp only [branchOperand, BranchOperand.byte2, BranchOperand.byte3]
  rw [flag, extractLow_append, whole]

theorem bytes_branchOperand (b2 b3 : Byte) :
    (branchOperand b2 b3).byte2 = b2 ∧ (branchOperand b2 b3).byte3 = b3 := by
  have fields : ∀ v : Byte, BitVec.ofBool (v.getLsbD 7) ++ v.extractLsb' 0 7 = v := by decide
  have high : (b2.extractLsb' 0 7 ++ b3).extractLsb' 8 7 = b2.extractLsb' 0 7 := extractHigh_append ..
  simp only [branchOperand, BranchOperand.byte2, BranchOperand.byte3]
  exact ⟨by rw [high]; exact fields b2, extractLow_append ..⟩

/-! The decoder in terms of the opcode map (R96). -/

section
variable {op : Byte} (rest : List Byte)

theorem decode_one {i : Instr} (h : shapeOf op = some (.one i)) : decode ([op] ++ rest) = .ok (i, rest) := by
  simp [decode, h]

theorem decode_imm {f : Byte → Instr} (h : shapeOf op = some (.two f)) (b2 : Byte) :
    decode ([op, b2] ++ rest) = .ok (f b2, rest) := by
  simp [decode, h]

theorem decode_rel {f : RelOperand → Instr} (h : shapeOf op = some (.two fun b2 => f (relOperand b2))) (l : RelOperand) :
    decode ([op, l.byte2] ++ rest) = .ok (f l, rest) := by
  simp [decode, h]

theorem decode_abs {f : AbsOperand → Instr} (h : shapeOf op = some (.three fun b2 b3 => f (absOperand b2 b3)))
    (a : AbsOperand) : decode ([op, a.byte2, a.byte3] ++ rest) = .ok (f a, rest) := by
  simp [decode, h]

theorem decode_branch {f : BranchOperand → Instr} (h : shapeOf op = some (.three fun b2 b3 => f (branchOperand b2 b3)))
    (b : BranchOperand) : decode ([op, b.byte2, b.byte3] ++ rest) = .ok (f b, rest) := by
  simp [decode, h]

end

/-- What a field of two bits can hold. -/
theorem twoBits_cases (d : BitVec 2) : d = 0 ∨ d = 1 ∨ d = 2 ∨ d = 3 := by
  revert d
  decide

/-- Settles O1, row by row of the opcode map: each value of the row's register or condition names an opcode byte whose entry
waits for just the operand bytes that the encoder wrote. -/
theorem decodeEncodeRoundTrip : Obligations.DecodeEncodeRoundTrip := by
  intro i rest hw
  cases i with
  | spsu | spsl | halt | lpsu | lpsl | nop => exact decode_one rest rfl
  | cpsu imm | cpsl imm | ppsu imm | ppsl imm | tpsu imm | tpsl imm => exact decode_imm rest rfl imm
  | zbrr l | zbsr l => exact decode_rel rest rfl l
  | bxa b | bsxa b => exact decode_branch rest rfl b
  | lodz r | eorz r | redc r | rrr r | iorz r | redd r | addz r | dar r | subz r | wrtc r | rrl r | comz r | wrtd r =>
    cases r <;> exact decode_one rest rfl
  | andz r | strz r =>
    cases r with
    | r0 => exact absurd hw (by decide)
    | r1 | r2 | r3 => exact decode_one rest rfl
  | lodi r imm | eori r imm | andi r imm | rede r imm | iori r imm | addi r imm | subi r imm | wrte r imm | comi r imm
  | tmi r imm =>
    cases r <;> exact decode_imm rest rfl imm
  | lodr r l | eorr r l | andr r l | brnr r l | iorr r l | bsnr r l | addr r l | subr r l | strr r l | birr r l | comr r l
  | bdrr r l =>
    cases r <;> exact decode_rel rest rfl l
  | loda r a | eora r a | anda r a | iora r a | adda r a | suba r a | stra r a | coma r a =>
    cases r <;> exact decode_abs rest rfl a
  | brna r b | bsna r b | bira r b | bdra r b => cases r <;> exact decode_branch rest rfl b
  | retc d | rete d => rcases twoBits_cases d with rfl | rfl | rfl | rfl <;> exact decode_one rest rfl
  | bctr d l | bstr d l => rcases twoBits_cases d with rfl | rfl | rfl | rfl <;> exact decode_rel rest rfl l
  | bcta d b | bsta d b => rcases twoBits_cases d with rfl | rfl | rfl | rfl <;> exact decode_branch rest rfl b
  | bcfr d l | bsfr d l =>
    rcases twoBits_cases d with rfl | rfl | rfl | rfl
    case inr.inr.inr => exact absurd hw Bool.false_ne_true
    all_goals exact decode_rel rest rfl l
  | bcfa d b | bsfa d b =>
    rcases twoBits_cases d with rfl | rfl | rfl | rfl
    case inr.inr.inr => exact absurd hw Bool.false_ne_true
    all_goals exact decode_branch rest rfl b

/-! From the bytes back to the instruction. -/

/-- The instructions an entry of the opcode map can answer are well-formed, and their encodings are the opcode byte and the
operand bytes the entry was given. -/
def Shape.Encodes (op : Byte) : Shape → Prop
  | .one i => i.wellFormed = true ∧ encode i = [op]
  | .two f => ∀ b2, (f b2).wellFormed = true ∧ encode (f b2) = [op, b2]
  | .three f => ∀ b2 b3, (f b2 b3).wellFormed = true ∧ encode (f b2 b3) = [op, b2, b3]

/-- How many bytes an entry's instruction has (R96). -/
def Shape.length : Shape → Nat
  | .one _ => 1
  | .two _ => 2
  | .three _ => 3

theorem Shape.length_bounds (x : Shape) : 1 ≤ x.length ∧ x.length ≤ 3 := by
  cases x <;> simp [Shape.length]

/-- An opcode byte is its row's base with the row's two bits (R91). -/
theorem opByte_of_row {op : Byte} {base : Nat} (h : (op &&& 0xFC).toNat = base) :
    opByte (BitVec.ofNat 8 base) (op.extractLsb' 0 2) = op := by
  have parts : ∀ v : Byte, opByte (v &&& 0xFC) (v.extractLsb' 0 2) = v := by decide
  rw [← h, BitVec.ofNat_toNat, BitVec.setWidth_eq, parts]

@[simp] theorem regOfBits_eq_r0 (d : BitVec 2) : regOfBits d = .r0 ↔ d = 0 := by
  revert d
  decide

/-- Every entry of the opcode map belongs to instructions whose encoding begins with its opcode byte (R115). -/
theorem shapeOf_encodes {op : Byte} {x : Shape} (h : shapeOf op = some x) : x.Encodes op := by
  unfold shapeOf at h
  dsimp only at h
  split at h
  any_goals contradiction
  all_goals
    rename_i row
    have base := opByte_of_row row
  -- ten rows leave the choice of the instruction to the two low bits
  any_goals split at h
  any_goals contradiction
  all_goals obtain rfl := Option.some.inj h
  any_goals
    rename_i low
    rw [low] at base
    subst base
    simp [Shape.Encodes, Instr.wellFormed, encode, opByte, bytes_branchOperand]
  all_goals simp [Shape.Encodes, Instr.wellFormed, encode, bytes_absOperand, bytes_branchOperand, base]
  -- left over: the row's bits are not those of the instruction that has no such encoding
  all_goals assumption

/-- What a list that decodes is: the entry of its first byte, and the encoding of the answer in front of what is left
(R96). -/
theorem decode_cons_inv {op : Byte} {bs rest : List Byte} {i : Instr} (h : decode (op :: bs) = .ok (i, rest)) :
    ∃ x, shapeOf op = some x ∧ i.wellFormed = true ∧ encode i ++ rest = op :: bs ∧ (encode i).length = x.length := by
  unfold decode at h
  dsimp only at h
  split at h
  · exact nomatch h
  · next j hx =>
    obtain ⟨wf, enc⟩ : j.wellFormed = true ∧ encode j = [op] := shapeOf_encodes hx
    obtain ⟨rfl, rfl⟩ := Prod.mk.inj (Except.ok.inj h)
    exact ⟨_, hx, wf, by rw [enc]; rfl, by rw [enc]; rfl⟩
  · next f hx =>
    have encodes := shapeOf_encodes hx
    match bs, h with
    | b2 :: bs, h =>
      obtain ⟨wf, enc⟩ := encodes b2
      obtain ⟨rfl, rfl⟩ := Prod.mk.inj (Except.ok.inj h)
      exact ⟨_, hx, wf, by rw [enc]; rfl, by rw [enc]; rfl⟩
  · next f hx =>
    have encodes := shapeOf_encodes hx
    match bs, h with
    | b2 :: b3 :: bs, h =>
      obtain ⟨wf, enc⟩ := encodes b2 b3
      obtain ⟨rfl, rfl⟩ := Prod.mk.inj (Except.ok.inj h)
      exact ⟨_, hx, wf, by rw [enc]; rfl, by rw [enc]; rfl⟩

/-- Settles O2: a list that decodes is not empty, and its first byte's entry says the rest. -/
theorem encodeDecodeRoundTrip : Obligations.EncodeDecodeRoundTrip := by
  intro bs i rest h
  match bs, h with
  | op :: bs, h =>
    obtain ⟨_, _, wf, enc, _⟩ := decode_cons_inv h
    exact ⟨wf, enc⟩

/-- Settles O3: `decode` reports a reserved byte exactly where the opcode map has no entry. -/
theorem reservedBytesAreExactlyTheTen : Obligations.ReservedBytesAreExactlyTheTen := by
  intro op rest
  rw [← shapeOf_eq_none_iff]
  constructor
  · intro h
    by_contra hx
    obtain ⟨x, hx⟩ := Option.ne_none_iff_exists'.mp hx
    rcases x with i | f | f
    · simp [decode, hx] at h
    · cases rest <;> simp [decode, hx] at h
    · rcases rest with _ | ⟨_, _ | _⟩ <;> simp [decode, hx] at h
  · intro h
    simp [decode, h]

theorem length_encode (i : Instr) : (encode i).length = instrLength i := by
  cases i <;> rfl

/-- Settles O4: the opcode byte fixes the entry of the opcode map, and the entry the length. -/
theorem opcodeFixesLength : Obligations.OpcodeFixesLength := by
  intro op bs cs i j rest rest' hi hj
  obtain ⟨x, hx, -, enc, len⟩ := decode_cons_inv hi
  obtain ⟨y, hy, -, -, len'⟩ := decode_cons_inv hj
  obtain rfl : x = y := Option.some.inj (hx.symm.trans hy)
  rw [length_encode] at len len'
  have total := congrArg List.length enc
  rw [List.length_append, length_encode, List.length_cons] at total
  exact ⟨len.trans len'.symm, by omega, len ▸ x.length_bounds⟩

/-- Settles O5 by decoding each word. -/
theorem specWordsDecode : Obligations.SpecWordsDecode := by
  unfold Obligations.SpecWordsDecode
  decide

end Sys2Proof
end

section
/-! The step (R355): the instruction fetched, the wait state, an inhibited request, reset; then what one access to memory does
(R62, R63), and the operands (R111, R112, R140). -/

namespace Sys2Proof.Machine

/-! The instruction a step runs. -/

@[simp] theorem nextAddr_zero (s : State) : s.nextAddr 0 = s.pc := by
  apply BitVec.eq_of_toNat_eq
  have := s.pc.isLt
  rw [nextAddr_toNat]
  omega

theorem fetch_one {s : State} {i : Instr} (h : shapeOf (s.memRead s.pc).1 = some (.one i)) :
    s.fetch = .instr i (s.memRead s.pc).2 := by
  simp [State.fetch, h]

theorem fetch_two {s : State} {f : Byte → Instr} (h : shapeOf (s.memRead s.pc).1 = some (.two f)) :
    let m2 := (s.memRead s.pc).2.memRead (s.nextAddr 1)
    s.fetch = .instr (f m2.1) m2.2 := by
  simp [State.fetch, h]

theorem fetch_three {s : State} {f : Byte → Byte → Instr} (h : shapeOf (s.memRead s.pc).1 = some (.three f)) :
    let m2 := (s.memRead s.pc).2.memRead (s.nextAddr 1)
    let m3 := m2.2.memRead (s.nextAddr 2)
    s.fetch = .instr (f m2.1 m3.1) m3.2 := by
  simp [State.fetch, h]

/-- What three bytes decode to, by the entry of the first, and the length of it (R96). -/
theorem decode_three_bytes {op b2 b3 : Byte} {i : Instr} {rest : List Byte} (h : decode [op, b2, b3] = .ok (i, rest)) :
    (shapeOf op = some (.one i) ∧ instrLength i = 1) ∨
    (∃ f, shapeOf op = some (.two f) ∧ i = f b2 ∧ instrLength i = 2) ∨
    (∃ f, shapeOf op = some (.three f) ∧ i = f b2 b3 ∧ instrLength i = 3) := by
  obtain ⟨x, hx, -, -, len⟩ := decode_cons_inv h
  rw [length_encode] at len
  simp only [decode, hx] at h
  cases x with
  | one j =>
    obtain ⟨rfl, -⟩ := Prod.mk.inj (Except.ok.inj h)
    exact .inl ⟨hx, len⟩
  | two f =>
    obtain ⟨rfl, -⟩ := Prod.mk.inj (Except.ok.inj h)
    exact .inr (.inl ⟨f, hx, rfl, len⟩)
  | three f =>
    obtain ⟨rfl, -⟩ := Prod.mk.inj (Except.ok.inj h)
    exact .inr (.inr ⟨f, hx, rfl, len⟩)

theorem step_of_fetch {s t : State} {i : Instr} (he : s.Executes) (hf : s.fetch = .instr i t) :
    step s = tickOutcome (exec i t) := by
  obtain ⟨hreset, haccepted, hwaiting⟩ := he
  simp [step, hreset, haccepted, hwaiting, hf]

/-- Where the bytes of an instruction are RAM or ROM, its fetch reads them as memory holds them and changes nothing (R62,
R67). -/
theorem fetch_of_plain {s : State} {i : Instr} {rest : List Byte} (h : decode s.codeBytes = .ok (i, rest))
    (plain : ∀ k < instrLength i, s.plainAt (s.nextAddr k) = true) : s.fetch = .instr i s := by
  have read (k : Nat) (hk : k < instrLength i) : s.memRead (s.nextAddr k) = (s.peek (s.nextAddr k), s) :=
    memRead_plain (plain k hk)
  rcases decode_three_bytes h with ⟨hx, len⟩ | ⟨f, hx, rfl, len⟩ | ⟨f, hx, rfl, len⟩
  all_goals
    have first : s.memRead s.pc = (s.peek s.pc, s) := by simpa using read 0 (by omega)
    have head : shapeOf (s.memRead s.pc).1 = shapeOf (s.peek s.pc) := by rw [first]
  · rw [fetch_one (head.trans hx), first]
  · rw [fetch_two (head.trans hx), first, read 1 (by omega)]
  · rw [fetch_three (head.trans hx), first, read 1 (by omega), read 2 (by omega)]

/-- Settles O6: the fetch follows the same entry of the opcode map as `decode` does, read by read. -/
theorem stepRunsDecodedInstruction : Obligations.StepRunsDecodedInstruction := by
  intro s i rest he
  refine ⟨fun h => ?_, fun h plain => step_of_fetch he (fetch_of_plain h plain)⟩
  apply step_of_fetch he
  rcases decode_three_bytes h with ⟨hx, len⟩ | ⟨f, hx, rfl, len⟩ | ⟨f, hx, rfl, len⟩
  · rw [fetch_one hx, len]
    rfl
  · rw [fetch_two hx, len]
    rfl
  · rw [fetch_three hx, len]
    rfl

/-! Steps that run no instruction. -/

/-- Settles O9: with II = 1 no request is accepted (R354). -/
theorem inhibitedRequestIsIgnored : Obligations.InhibitedRequestIsIgnored := by
  intro s hreset hII
  have ignored : s.interruptAccepted = false := by simp [State.interruptAccepted, hII]
  refine ⟨fun hw => ?_, fun hw i t hf => step_of_fetch ⟨hreset, ignored, hw⟩ hf⟩
  simp [step, hreset, ignored, hw]

/-- The pins of the next boundary and the schedule are all that a boundary changes (log 7). -/
theorem tick_restore (s : State) : { s.tick with pins := s.pins, schedule := s.schedule } = s := by
  rcases tick_cases s with ⟨-, e⟩ | ⟨p, rest, -, e⟩ <;> rw [e]

/-- Settles O10: the step is `tick` alone. -/
theorem waitStateHolds : Obligations.WaitStateHolds := by
  intro s hreset hw hno
  have ignored : s.interruptAccepted = false := by
    rcases hno with h | h <;> simp [State.interruptAccepted, h]
  refine ⟨s.tick, ?_, tick_restore s⟩
  simp [step, hreset, ignored, hw]

/-- Settles O11: the step is `resetStep`. -/
theorem resetEffect : Obligations.ResetEffect := by
  intro s hreset
  have stepped : step s = .next s.resetStep.tick := by simp [step, hreset]
  exact ⟨s.resetStep, stepped, rfl, psuII_withII .., rfl, rfl, rfl, rfl, rfl, rfl, rfl⟩

/-- Settles O12 by evaluation. -/
theorem resetStateValues : Obligations.ResetStateValues :=
  ⟨rfl, rfl, rfl⟩

/-- Settles O15: memory is empty and PSU is 0. -/
theorem resetHasInvariant : Obligations.ResetHasInvariant :=
  ⟨reset_mem_wf, rfl⟩

/-! One access to memory. -/

theorem memRead_device {s : State} {a : Addr} (h : s.kindAt a = .device) :
    s.memRead a = (s.inputByte.1, s.inputByte.2.record (.deviceRead a s.inputByte.1)) := by
  simp [State.memRead, h]

theorem memRead_empty {s : State} {a : Addr} (h : s.kindAt a = .empty) :
    s.memRead a = (Config.freeByte s.freeCount, { s with freeCount := s.freeCount + 1 }) := by
  simp [State.memRead, h]

theorem inputByte_of_cons {s : State} {b : Byte} {rest : List Byte} (h : s.inputs = b :: rest) :
    s.inputByte = (b, { s with inputs := rest }) := by
  simp [State.inputByte, h]

theorem inputByte_of_nil {s : State} (h : s.inputs = []) :
    s.inputByte = (Config.freeByte s.freeCount, { s with freeCount := s.freeCount + 1 }) := by
  simp [State.inputByte, h]

/-- Settles O26, kind by kind. -/
theorem memoryReadEffect : Obligations.MemoryReadEffect := by
  intro s a
  refine ⟨fun h => memRead_plain ?_, fun h b rest hin => ?_, fun h hin => ?_, fun h => ⟨_, memRead_empty h⟩⟩
  · rcases h with h | h <;> rw [h] <;> rfl
  · rw [memRead_device h, inputByte_of_cons hin]
    rfl
  · refine ⟨Config.freeByte s.freeCount, ?_⟩
    rw [memRead_device h, inputByte_of_nil hin]
    rfl

/-- What a write leaves at its address and on the bus (R63). -/
theorem storedAt_memWrite (s : State) (a : Addr) (v : Byte) : StoredAt s (s.memWrite a v) a v := by
  have byKind : (s.kindAt a ≠ .ram → (s.memWrite a v).peek a = s.peek a) ∧
      (s.kindAt a = .device → (s.memWrite a v).events = .deviceWrite a v :: s.events) ∧
      (s.kindAt a ≠ .device → (s.memWrite a v).events = s.events) := by
    rcases memWrite_cases s a v with ⟨h, e⟩ | ⟨h, e⟩ | ⟨h, e⟩
    · rw [e, h]
      exact ⟨absurd rfl, nofun, fun _ => rfl⟩
    · rw [e]
      exact ⟨fun _ => rfl, fun _ => rfl, fun hn => absurd h hn⟩
    · rw [e]
      exact ⟨fun _ => rfl, fun hd => by simp [hd] at h, fun _ => rfl⟩
  obtain ⟨held, told, untold⟩ := byKind
  exact ⟨fun hk hm => peek_memWrite_same hm v hk, held, fun b hb => peek_memWrite_other s v hb, memWrite_inputs ..,
    memWrite_freeCount .., told, untold⟩

/-- Settles O27: each kind by its case of the write. -/
theorem memoryWriteEffect : Obligations.MemoryWriteEffect := by
  intro s a v
  refine ⟨storedAt_memWrite s a v, fun h => ?_, ?_, fun hm => memWrite_wf hm a v⟩
  · rcases h with h | h <;> simp [State.memWrite, h]
  · ext1 <;> simp

/-! Operands. -/

theorem branchAbsEA_target (s : State) (b : BranchOperand) : TargetIs s b.indirect b.addr.toNat (s.branchAbsEA b) :=
  targetIs_indirectIf s b.indirect b.addr

/-- The index of BXA and BSXA is added after any indirection, modulo 32,768 (R112). -/
theorem indexedBranchEA_toNat (s : State) (b : BranchOperand) :
    (s.indexedBranchEA b).1.toNat = ((s.branchAbsEA b).1.toNat + (s.reg .r3).toNat) % 32768 := by
  have index : (s.branchAbsEA b).2.reg .r3 = s.reg .r3 := reg_indirectIf ..
  have := (s.reg .r3).isLt
  rw [State.indexedBranchEA, index, BitVec.toNat_add, BitVec.toNat_setWidth]
  omega

/-- Settles O29: the index is added to the address that the operand names. -/
theorem branchAddresses : Obligations.BranchAddresses :=
  fun s b => ⟨branchAbsEA_target s b, indexedBranchEA_toNat s b, rfl⟩

/-- A register that stepping the index does not write reads as before (R107). -/
theorem reg_absEA_of_ne (s : State) (r : Reg) (a : AbsOperand) {n : Reg} (h : n ≠ r ∨ a.index = .plain) :
    (s.absEA r a).s.reg n = s.reg n := by
  rw [absEA_s, ← reg_indirectIf s a.indirect (samePage s.pc a.addr) n]
  cases hx : a.index with
  | plain | indexed => rfl
  | autoIncrement | autoDecrement => rw [State.stepIndex, reg_setReg, if_neg (by simpa [hx] using h)]

/-- Settles O31: forms Z, I and R change no register; form A at most the index. -/
theorem operandForms : Obligations.OperandForms := by
  intro s
  refine ⟨fun r => ⟨rfl, rfl, rfl, rfl⟩, fun r i => ⟨rfl, rfl, rfl, rfl⟩, fun r l => ⟨rfl, rfl, ?_⟩,
    fun r a => ⟨rfl, rfl, fun h => ?_, ?_⟩⟩
  · rw [Operand.a]
    exact (reg_memRead ..).trans (reg_indirectIf ..)
  · rw [Operand.a]
    exact (reg_memRead ..).trans (reg_absEA_of_ne s r a h)
  · exact reg_memRead ..

end Sys2Proof.Machine
end

section
/-! The rules of the whole machine: the few ways in which an instruction ends, said once for all 75, and what follows from
them about every instruction and every step. -/

namespace Sys2Proof.Machine

/-! What evaluating operands and writing registers and flags leaves alone. -/

/-- From `s` to `u` only registers that `s` selects, PSL and the traffic with the environment may have changed. -/
structure Calm (s u : State) : Prop where
  bank : ∀ n, n ≠ .r0 → u.regAt (!pslRS s.psl) n = s.regAt (!pslRS s.psl) n
  pc : u.pc = s.pc
  psu : u.psu = s.psu
  ras : u.ras = s.ras
  waiting : u.waiting = s.waiting
  mem : u.mem = s.mem
  params : u.params = s.params
  pins : u.pins = s.pins
  schedule : u.schedule = s.schedule

namespace Calm

variable {s u : State}

theorem refl (s : State) : Calm s s :=
  ⟨fun _ _ => rfl, rfl, rfl, rfl, rfl, rfl, rfl, rfl, rfl⟩

theorem setReg (h : Calm s u) (hrs : pslRS u.psl = pslRS s.psl) (r : Reg) (v : Byte) : Calm s (u.setReg r v) := by
  refine { h with bank := fun n hn => ?_ }
  rw [regAt_setReg, hrs, if_neg, h.bank n hn]
  rintro ⟨rfl, hr | hr⟩
  · exact hn hr
  · simp at hr

theorem setPsl (h : Calm s u) (v : Byte) : Calm s (u.setPsl v) :=
  { h with bank := h.bank }

theorem record (h : Calm s u) (e : Event) : Calm s (u.record e) :=
  { h with bank := h.bank }

/-- A frame with all of PSU held, pc and memory make a calm change. -/
theorem of_quietFrame {ns : List Reg} {p : Byte} (h : QuietFrame s u ns p 0) (hpc : u.pc = s.pc) (hmem : u.mem = s.mem) :
    Calm s u := by
  have psu := h.psu_eq
  obtain ⟨⟨regs, -, -, waiting, params, pins, schedule⟩, -, ras⟩ := h
  exact ⟨fun n hn => regs _ n fun _ => ⟨hn, by simp⟩, hpc, psu, ras, waiting, hmem, params, pins, schedule⟩

end Calm

theorem calm_indirectIf (s : State) (flag : Bool) (a : Addr) : Calm s (s.indirectIf flag a).2 :=
  .of_quietFrame (indirectIf_quietFrame s flag a) (by simp) (by simp)

theorem calm_memRead {s u : State} (h : Calm s u) (a : Addr) : Calm s (u.memRead a).2 := by
  refine ⟨fun n hn => ?_, ?_, ?_, ?_, ?_, ?_, ?_, ?_, ?_⟩
  · rw [regAt_congr (memRead_r0 ..) (memRead_bank0 ..) (memRead_bank1 ..), h.bank n hn]
  all_goals simp [h.pc, h.psu, h.ras, h.waiting, h.mem, h.params, h.pins, h.schedule]

theorem calm_ioRead (s : State) (p : Port) : Calm s (s.ioRead p).2 := by
  refine ⟨fun n hn => ?_, ?_, ?_, ?_, ?_, ?_, ?_, ?_, ?_⟩
  · rw [regAt_congr (ioRead_r0 ..) (ioRead_bank0 ..) (ioRead_bank1 ..)]
  all_goals simp

theorem calm_absEA (s : State) (r : Reg) (a : AbsOperand) : Calm s (s.absEA r a).s := by
  rw [absEA_s]
  have base := calm_indirectIf s a.indirect (samePage s.pc a.addr)
  cases a.index with
  | plain | indexed => exact base
  | autoIncrement | autoDecrement => exact base.setReg (by rw [indirectIf_psl]) _ _

theorem calm_operand (f : Form) (s : State) : Calm s (f.operand s).s :=
  .of_quietFrame (f.operand_quietFrame s) (f.operand_pc s) (by cases f <;> simp [Form.operand])

theorem calm_put (f : Form) (s : State) (x : AluResult) : Calm s ((f.operand s).put x) :=
  ((calm_operand f s).setReg (by rw [Form.operand_psl]) _ _).setPsl _

theorem calm_compare (f : Form) (s : State) : Calm s (f.operand s).compare :=
  (calm_operand f s).setPsl _

/-- A register, PSL and nothing else. -/
theorem calm_setReg_setPsl (s : State) (r : Reg) (v psl : Byte) : Calm s ((s.setReg r v).setPsl psl) :=
  ((Calm.refl s).setReg rfl r v).setPsl psl

/-- A port read, its byte to a register, CC from it (R322). -/
theorem calm_input (s : State) (p : Port) (r : Reg) (v : Byte) : Calm s (((s.ioRead p).2.setReg r v).setCC v) :=
  ((calm_ioRead s p).setReg (by rw [ioRead_psl]) r v).setPsl _

/-! The ways an instruction ends. -/

/-- The ways an instruction ends, with the kind of the instructions that end so. -/
inductive Ends (s : State) : Instr → State → Prop
  | ordinary {i : Instr} {u : State} (hu : Calm s u) : Ends s i (u.advance (instrLength i))
  | transfer {i : Instr} {u : State} (hi : isBranch i = true ∨ isCall i = true ∨ isReturn i = true) (hu : Calm s u)
      (a : Addr) : Ends s i (u.setPc a)
  | call {i : Instr} {u : State} (hi : isCall i = true) (hu : Calm s u) (v a : Addr) : Ends s i ((u.push v).setPc a)
  | retc (d : Cond) : Ends s (.retc d) s.popPc
  | rete (d : Cond) : Ends s (.rete d) s.returnFromInterrupt
  | store {i : Instr} {u : State} (hi : isStore i = true) (hu : Calm s u) (a : Addr) (v : Byte) :
      Ends s i ((u.memWrite a v).advance (instrLength i))
  | psu {i : Instr} (hi : writesPsu i = true) (v : Byte) : Ends s i ((s.writePsu v).advance (instrLength i))
  | halt : Ends s .halt (({ s with waiting := true } : State).advance 1)

/-- A branch, taken or not, after a calm change (R201). -/
theorem ends_branch {i : Instr} (hi : isBranch i = true) {s u : State} (hu : Calm s u) {ea : State → Addr × State}
    (hea : Calm s (ea u).2) (c : Bool) (len : Nat) : Ends s i (u.branch c len ea) := by
  cases c with
  | true => exact .transfer (.inl hi) hea _
  | false => exact .transfer (.inl hi) hu _

/-- A call, taken or not (R230). -/
theorem ends_callIf {i : Instr} (hi : isCall i = true) {s : State} {ea : State → Addr × State} (hea : Calm s (ea s).2)
    (c : Bool) (len : Nat) : Ends s i (s.callIf c len ea) := by
  cases c with
  | true => exact .call hi hea _ _
  | false => exact .transfer (.inr (.inl hi)) (.refl s) _

/-- Counting a register and taking an address through its pointer is calm (R207 to R210). -/
theorem calm_setReg_indirectIf (s : State) (r : Reg) (v : Byte) (flag : Bool) (a : Addr) :
    Calm s ((s.setReg r v).indirectIf flag a).2 := by
  have kept := (Calm.refl s).setReg rfl r v
  have read := calm_indirectIf (s.setReg r v) flag a
  exact ⟨fun n hn => (read.bank n hn).trans (kept.bank n hn), read.pc, read.psu, read.ras, read.waiting, read.mem,
    read.params, read.pins, read.schedule⟩

/-- The 75 instructions, each by the way it ends. -/
theorem exec_ends {i : Instr} {s t : State} (h : exec i s = .next t) : Ends s i t := by
  have calm := Calm.refl s
  have pointer := calm_indirectIf s
  cases i with
  | addz r | subz r | lodz r | andz r | eorz r | iorz r => cases h; exact .ordinary (calm_put (.regZero r) s _)
  | addi r v | subi r v | lodi r v | andi r v | eori r v | iori r v => cases h; exact .ordinary (calm_put (.imm r v) s _)
  | addr r l | subr r l | lodr r l | andr r l | eorr r l | iorr r l => cases h; exact .ordinary (calm_put (.rel r l) s _)
  | adda r a | suba r a | loda r a | anda r a | eora r a | iora r a => cases h; exact .ordinary (calm_put (.abs r a) s _)
  | comz r => cases h; exact .ordinary (calm_compare (.regZero r) s)
  | comi r v => cases h; exact .ordinary (calm_compare (.imm r v) s)
  | comr r l => cases h; exact .ordinary (calm_compare (.rel r l) s)
  | coma r a => cases h; exact .ordinary (calm_compare (.abs r a) s)
  | spsu | spsl | strz | rrr | rrl => cases h; exact .ordinary (calm_setReg_setPsl ..)
  | dar r =>
    cases h
    have adjusted := calm.setReg rfl r (decimalAdjust s.psl (s.reg r))
    exact .ordinary { adjusted with bank := adjusted.bank }
  | tmi | tpsu | tpsl | cpsl | ppsl | lpsl => cases h; exact .ordinary (calm.setPsl _)
  | redc | redd | rede => cases h; exact .ordinary (calm_input ..)
  | wrtc | wrtd | wrte => cases h; exact .ordinary (calm.record _)
  | nop => cases h; exact .ordinary calm
  | halt => cases h; exact .halt
  | cpsu | ppsu | lpsu => cases h; exact .psu rfl _
  | stra r a => cases h; exact .store rfl (calm_absEA s r a) _ _
  | strr r l => cases h; exact .store rfl (pointer ..) _ _
  | bctr | bcta | bcfr | bcfa | brnr | brna => cases h; exact ends_branch rfl calm (pointer ..) _ _
  | birr r | bira r | bdrr r | bdra r =>
    cases h
    exact ends_branch rfl (calm.setReg rfl r _) (calm_setReg_indirectIf ..) _ _
  | bxa | zbrr => cases h; exact .transfer (.inl rfl) (pointer ..) _
  | bstr | bsta | bsfr | bsfa | bsnr | bsna => cases h; exact ends_callIf rfl (pointer ..) _ _
  | bsxa | zbsr => cases h; exact .call rfl (pointer ..) _ _
  | retc d =>
    cases h
    cases s.condTrue d with
    | true => exact .retc d
    | false => exact .transfer (.inr (.inr rfl)) calm _
  | rete d =>
    cases h
    cases s.condTrue d with
    | true => exact .rete d
    | false => exact .transfer (.inr (.inr rfl)) calm _

/-! What follows for every instruction. -/

/-- Parameters, pins and schedule are kept by every instruction. -/
theorem Ends.environment {i : Instr} {s t : State} (h : Ends s i t) :
    t.params = s.params ∧ t.pins = s.pins ∧ t.schedule = s.schedule := by
  cases h with
  | ordinary hu | transfer _ hu | call _ hu => exact ⟨hu.params, hu.pins, hu.schedule⟩
  | store _ hu => simp [hu.params, hu.pins, hu.schedule]
  | retc | rete | psu | halt => exact ⟨rfl, rfl, rfl⟩

/-- Settles O16: whichever way an instruction ends, it answers a next state. -/
theorem everyInstructionCompletes : Obligations.EveryInstructionCompletes := by
  intro i s
  obtain ⟨t, ht⟩ := exec_eq_next i s
  exact ⟨t, ht, (exec_ends ht).environment⟩

/-- Settles O18: of the ways to end, only that of a store writes memory. -/
theorem onlyStoresWriteMemory : Obligations.OnlyStoresWriteMemory := by
  intro i s t hi h
  cases exec_ends h with
  | ordinary hu | transfer _ hu | call _ hu => exact hu.mem
  | store hs => exact absurd hs (by simp [hi])
  | retc | rete | psu | halt => rfl

/-- Settles O19: of the ways to end, only that of a call taken writes the stack. -/
theorem onlyCallsWriteStack : Obligations.OnlyCallsWriteStack := by
  intro i s t hi h
  cases exec_ends h with
  | ordinary hu | transfer _ hu => exact hu.ras
  | store _ hu => simp [hu.ras]
  | call hc => exact absurd hc (by simp [hi])
  | retc | rete | psu | halt => rfl

/-- Settles O21: of the ways to end, only that of HALT writes `waiting`. -/
theorem onlyHaltWaits : Obligations.OnlyHaltWaits := by
  intro i s t h
  refine ⟨?_, fun hi => ?_⟩
  · rintro rfl
    cases h
    rfl
  · cases exec_ends h with
    | ordinary hu | transfer _ hu | call _ hu => exact hu.waiting
    | store _ hu => simp [hu.waiting]
    | halt => exact absurd rfl hi
    | retc | rete | psu => rfl

/-- Settles O20: of the ways to end, a call taken and RETC write SP, and RETE also II. -/
theorem psuWriters : Obligations.PsuWriters := by
  intro i s t hi h
  cases exec_ends h with
  | ordinary hu | transfer _ hu | store _ hu =>
    have kept : _ = s.psu := hu.psu
    simp [kept]
  | call hc hu =>
    refine ⟨fun hn => absurd hc (by simp [hn]), fun _ => ?_, ?_⟩
    · rw [setPc_psu, push_psu, withSP_masked, hu.psu]
    · rintro ⟨d, rfl⟩
      exact absurd hc Bool.false_ne_true
  | retc d => exact ⟨nofun, fun _ => withSP_masked .., nofun⟩
  | rete d =>
    refine ⟨nofun, ?_, fun _ => ⟨withII_withSP_masked .., .inr (psuII_withII ..)⟩⟩
    rintro (hc | ⟨_, hc⟩)
    · exact nomatch hc
    · exact nomatch hc
  | psu hw => exact absurd hw (by simp [hi])
  | halt => exact ⟨fun _ _ => rfl, fun _ => rfl, fun _ => ⟨rfl, .inl rfl⟩⟩

/-- Settles O22: pc of an instruction that transfers no control is the next instruction's address. -/
theorem straightLineAdvances : Obligations.StraightLineAdvances := by
  intro i s t hb hc hr h
  have next {u : State} (hu : u.pc = s.pc) : (u.nextAddr (instrLength i)).toNat = stepInPage s.pc.toNat (instrLength i) := by
    rw [nextAddr_eq_stepInPage, hu]
  cases exec_ends h with
  | ordinary hu => exact next hu.pc
  | store _ hu => exact next (by simp [hu.pc])
  | psu => exact next rfl
  | halt => exact next rfl
  | transfer ht => simp [hb, hc, hr] at ht
  | call ht => simp [hc] at ht
  | retc | rete => simp [isReturn] at hr

/-- Settles O23: registers are written through the bank selected, and only in a calm change. -/
theorem unselectedBankKept : Obligations.UnselectedBankKept := by
  intro i s t n hn h
  cases exec_ends h with
  | ordinary hu | transfer _ hu | call _ hu => exact hu.bank n hn
  | store _ hu => exact (regAt_congr (memWrite_r0 ..) (memWrite_bank0 ..) (memWrite_bank1 ..) _ n).trans (hu.bank n hn)
  | retc | rete | psu | halt => rfl


/-! What follows for every step. -/

/-- Fetching is reading: it changes only the traffic. -/
theorem calm_fetch {s t : State} {i : Instr} (h : s.fetch = .instr i t) : Calm s t := by
  have first := calm_memRead (.refl s) s.pc
  have second := calm_memRead first (s.nextAddr 1)
  cases hx : shapeOf (s.memRead s.pc).1 with
  | none => simp [State.fetch, hx] at h
  | some x =>
    cases x with
    | one j =>
      obtain ⟨-, rfl⟩ := Fetched.instr.inj ((fetch_one hx).symm.trans h)
      exact first
    | two f =>
      obtain ⟨-, rfl⟩ := Fetched.instr.inj ((fetch_two hx).symm.trans h)
      exact second
    | three f =>
      obtain ⟨-, rfl⟩ := Fetched.instr.inj ((fetch_three hx).symm.trans h)
      exact calm_memRead second _

/-- A step that does not stop is a reset, an interrupt entry, a wait or an instruction, then the next boundary's pins. -/
theorem step_next_inv {s t : State} (h : step s = .next t) :
    ∃ u, t = u.tick ∧
      (u = s.resetStep ∨ u = s.interruptEntry ∨ u = s ∨ ∃ i c, Calm s c ∧ exec i c = .next u) := by
  rcases step_cases s with ⟨-, e⟩ | ⟨-, -, e⟩ | ⟨-, -, -, e⟩ | ⟨-, op, -, e⟩ | ⟨-, i, c, hf, e⟩
  · exact ⟨_, Host.Outcome.next.inj (h.symm.trans e), .inl rfl⟩
  · exact ⟨_, Host.Outcome.next.inj (h.symm.trans e), .inr (.inl rfl)⟩
  · exact ⟨_, Host.Outcome.next.inj (h.symm.trans e), .inr (.inr (.inl rfl))⟩
  · simp [e] at h
  · obtain ⟨u, hu⟩ := exec_eq_next i c
    rw [hu] at e
    exact ⟨u, Host.Outcome.next.inj (h.symm.trans e), .inr (.inr (.inr ⟨i, c, calm_fetch hf, hu⟩))⟩

/-- Settles O13: whatever the step does keeps the environment's fields, and then the boundary takes the next pins. -/
theorem stepAdvancesPinsAndKeepsParameters : Obligations.StepAdvancesPinsAndKeepsParameters := by
  intro s t h
  obtain ⟨u, rfl, hu⟩ := step_next_inv h
  have kept : u.params = s.params ∧ u.pins = s.pins ∧ u.schedule = s.schedule := by
    rcases hu with rfl | rfl | rfl | ⟨i, c, hc, hu⟩
    · exact ⟨rfl, rfl, rfl⟩
    · simp
    · exact ⟨rfl, rfl, rfl⟩
    · obtain ⟨params, pins, schedule⟩ := (exec_ends hu).environment
      exact ⟨params.trans hc.params, pins.trans hc.pins, schedule.trans hc.schedule⟩
  obtain ⟨params, pins, schedule⟩ := kept
  refine ⟨(tick_params u).trans params, fun hs => ?_, fun p rest hs => ?_⟩
  all_goals
    rw [← schedule] at hs
    simp [State.tick, hs, pins]

/-! The invariant. -/

/-- A write of PSU under a mask of stored bits leaves the bits that are not stored (R31, R34). -/
theorem unstored_of_masked {p : Config.Psu43} {v psu m : Byte} (h : v &&& ~~~m = psu &&& ~~~m)
    (hm : ~~~m &&& ~~~psuWriteMask p = ~~~psuWriteMask p) : v &&& ~~~psuWriteMask p = psu &&& ~~~psuWriteMask p := by
  rw [← hm, ← BitVec.and_assoc, ← BitVec.and_assoc, h]

/-- SP and II are stored under both values of `PSU43` (R34, R36). -/
theorem stackAndInhibit_stored (p : Config.Psu43) :
    ~~~0x07#8 &&& ~~~psuWriteMask p = ~~~psuWriteMask p ∧ ~~~0x27#8 &&& ~~~psuWriteMask p = ~~~psuWriteMask p := by
  cases p <;> exact ⟨rfl, rfl⟩

/-- `WritePSU` leaves the bits that are not stored (R36). -/
theorem unstored_writePsu (s : State) (v : Byte) :
    (s.writePsu v).psu &&& ~~~psuWriteMask s.params.psu43 = s.psu &&& ~~~psuWriteMask s.params.psu43 := by
  apply BitVec.eq_of_getLsbD_eq
  intro k hk
  simp only [State.writePsu, BitVec.getLsbD_and, BitVec.getLsbD_or, BitVec.getLsbD_not, hk, decide_true, Bool.true_and]
  cases (psuWriteMask s.params.psu43).getLsbD k <;> simp

/-- The invariant goes over to a state with canonical memory, the same parameters and the same unstored bits. -/
theorem inv_of_kept {s t : State} (hs : s.Inv) (hm : Memory.wf t.mem) (hp : t.params = s.params)
    (hu : t.psu &&& ~~~psuWriteMask s.params.psu43 = s.psu &&& ~~~psuWriteMask s.params.psu43) : t.Inv := by
  obtain ⟨-, psu⟩ := hs
  exact ⟨hm, by rw [hp, hu, psu]⟩

theorem Calm.inv {s u : State} (h : Calm s u) (hs : s.Inv) : u.Inv :=
  inv_of_kept hs (h.mem ▸ hs.1) h.params (by rw [h.psu])

/-- Every way an instruction ends keeps the invariant. -/
theorem Ends.inv {i : Instr} {s t : State} (h : Ends s i t) (hs : s.Inv) : t.Inv := by
  obtain ⟨sp, spII⟩ := stackAndInhibit_stored s.params.psu43
  cases h with
  | ordinary hu | transfer _ hu => exact hu.inv hs
  | call _ hu =>
    obtain ⟨mem, -⟩ := hu.inv hs
    exact inv_of_kept hs mem hu.params (unstored_of_masked (by rw [setPc_psu, push_psu, withSP_masked, hu.psu]) sp)
  | retc => exact inv_of_kept hs hs.1 rfl (unstored_of_masked (withSP_masked ..) sp)
  | rete => exact inv_of_kept hs hs.1 rfl (unstored_of_masked (withII_withSP_masked ..) spII)
  | store _ hu a v =>
    obtain ⟨mem, -⟩ := hu.inv hs
    exact inv_of_kept hs (memWrite_wf mem a v) (by simp [hu.params]) (by simp [hu.psu])
  | psu _ v => exact inv_of_kept hs hs.1 rfl (unstored_writePsu s v)
  | halt => exact hs

theorem inv_resetStep {s : State} (hs : s.Inv) : s.resetStep.Inv := by
  obtain ⟨mem, -⟩ := hs
  refine ⟨mem, BitVec.eq_of_getLsbD_eq fun k hk => ?_⟩
  simp only [State.resetStep, withII, getLsbD_setBit _ _ (by decide : 5 < 8), BitVec.getLsbD_and, BitVec.getLsbD_not, hk]
  cases (psuWriteMask s.params.psu43).getLsbD k <;> simp

theorem inv_interruptEntry {s : State} (hs : s.Inv) : s.interruptEntry.Inv := by
  obtain ⟨-, spII⟩ := stackAndInhibit_stored s.params.psu43
  obtain ⟨-, -, masked⟩ := interruptEntry_psu_effect s
  exact inv_of_kept hs (by rw [interruptEntry_mem]; exact hs.1) (by simp) (unstored_of_masked masked spII)

theorem inv_tick {s : State} (hs : s.Inv) : s.tick.Inv :=
  inv_of_kept hs (by rw [tick_mem]; exact hs.1) (by simp) (by simp)

/-- Settles O14, by what the step is: a reset, an interrupt entry, a wait, or an instruction after its fetch. -/
theorem stepKeepsInvariant : Obligations.StepKeepsInvariant := by
  intro s t hs h
  obtain ⟨u, rfl, hu⟩ := step_next_inv h
  apply inv_tick
  rcases hu with rfl | rfl | rfl | ⟨i, c, hc, hu⟩
  · exact inv_resetStep hs
  · exact inv_interruptEntry hs
  · exact hs
  · exact (exec_ends hu).inv (hc.inv hs)

end Sys2Proof.Machine
end

section
/-! What instructions do not see: the bank not selected and, but for calls and returns, the return address stack (R22, R50);
then the bits of PSL that the flag column leaves alone (R47). -/

namespace Sys2Proof.Machine

/-! Two-operand instructions as functions of PSL and their operands. -/

/-- The instruction writes back a function of PSL and the two operands of the form (R140). -/
def RunsForm (i : Instr) (f : Form) (g : Byte → Byte → Byte → AluResult) : Prop :=
  ∀ s, exec i s = .next (((f.operand s).put (g s.psl (f.operand s).a (f.operand s).b)).advance f.length)

/-- The 28 instructions of the four forms. -/
def isForm (i : Instr) : Bool :=
  match i with
  | .addz _ | .addi _ _ | .addr _ _ | .adda _ _ | .subz _ | .subi _ _ | .subr _ _ | .suba _ _ | .comz _ | .comi _ _
  | .comr _ _ | .coma _ _ | .andz _ | .andi _ _ | .andr _ _ | .anda _ _ | .eorz _ | .eori _ _ | .eorr _ _ | .eora _ _
  | .iorz _ | .iori _ _ | .iorr _ _ | .iora _ _ | .lodz _ | .lodi _ _ | .lodr _ _ | .loda _ _ => true
  | _ => false

theorem exists_form_of_isForm {i : Instr} (h : isForm i = true) :
    ∃ f : Form, i = f.add ∨ i = f.sub ∨ i = f.com ∨ i = f.and ∨ i = f.eor ∨ i = f.ior ∨ i = f.lod := by
  cases i with
  | addz r | subz r | comz r | andz r | eorz r | iorz r | lodz r =>
    exact ⟨.regZero r, by simp [Form.add, Form.sub, Form.com, Form.and, Form.eor, Form.ior, Form.lod]⟩
  | addi r v | subi r v | comi r v | andi r v | eori r v | iori r v | lodi r v =>
    exact ⟨.imm r v, by simp [Form.add, Form.sub, Form.com, Form.and, Form.eor, Form.ior, Form.lod]⟩
  | addr r l | subr r l | comr r l | andr r l | eorr r l | iorr r l | lodr r l =>
    exact ⟨.rel r l, by simp [Form.add, Form.sub, Form.com, Form.and, Form.eor, Form.ior, Form.lod]⟩
  | adda r a | suba r a | coma r a | anda r a | eora r a | iora r a | loda r a =>
    exact ⟨.abs r a, by simp [Form.add, Form.sub, Form.com, Form.and, Form.eor, Form.ior, Form.lod]⟩
  | _ => exact nomatch h

theorem exec_lod (f : Form) (s : State) :
    exec f.lod s = .next (((f.operand s).result (f.operand s).b).advance f.length) := by
  cases f <;> rfl

/-- A result and CC from it. -/
def ccResult (psl v : Byte) : AluResult :=
  { value := v, psl := withCC psl (ccOf v) }

theorem runsForm_of_isForm {i : Instr} (h : isForm i = true) : ∃ f g, RunsForm i f g := by
  obtain ⟨f, rfl | rfl | rfl | rfl | rfl | rfl | rfl⟩ := exists_form_of_isForm h
  · exact ⟨f, add8, fun s => by rw [← f.operand_psl s]; cases f <;> rfl⟩
  · exact ⟨f, sub8, fun s => by rw [← f.operand_psl s]; cases f <;> rfl⟩
  · refine ⟨f, fun psl a b => { value := a, psl := compare8 psl a b }, fun s => ?_⟩
    rw [exec_com, Operand.compare_eq_put, Form.operand_psl]
  · exact ⟨f, fun psl a b => ccResult psl (a &&& b), fun s => by rw [exec_and, ← f.operand_psl s]; rfl⟩
  · exact ⟨f, fun psl a b => ccResult psl (a ^^^ b), fun s => by rw [exec_eor, ← f.operand_psl s]; rfl⟩
  · exact ⟨f, fun psl a b => ccResult psl (a ||| b), fun s => by rw [exec_ior, ← f.operand_psl s]; rfl⟩
  · exact ⟨f, fun psl _ b => ccResult psl b, fun s => by rw [exec_lod, ← f.operand_psl s]; rfl⟩

/-! Other contents of the banks and of the stack. -/

/-- Other contents for the two banks and the stack, each a function of the contents it replaces. -/
structure Alteration where
  bank0 : RegBank → RegBank
  bank1 : RegBank → RegBank
  ras : Vector Addr 8 → Vector Addr 8

namespace Alteration

def apply (m : Alteration) (s : State) : State :=
  { s with bank0 := m.bank0 s.bank0, bank1 := m.bank1 s.bank1, ras := m.ras s.ras }

/-- The bank that `psl` selects is left as it is. -/
def Spares (m : Alteration) (psl : Byte) : Prop :=
  (pslRS psl = false → m.bank0 = id) ∧ (pslRS psl = true → m.bank1 = id)

variable {m : Alteration} {s : State}

theorem reg (hm : m.Spares s.psl) (r : Reg) : (m.apply s).reg r = s.reg r := by
  obtain ⟨zero, one⟩ := hm
  unfold State.reg State.regAt apply
  cases hb : pslRS s.psl
  · simp [zero hb]
  · simp [one hb]

theorem setReg (hm : m.Spares s.psl) (r : Reg) (v : Byte) : (m.apply s).setReg r v = m.apply (s.setReg r v) := by
  obtain ⟨zero, one⟩ := hm
  unfold State.setReg apply
  cases hb : pslRS s.psl
  · simp [zero hb]
  · simp [one hb]

theorem inputByte (m : Alteration) (s : State) : (m.apply s).inputByte = (s.inputByte.1, m.apply s.inputByte.2) := by
  have inputs : (m.apply s).inputs = s.inputs := rfl
  unfold State.inputByte
  rw [inputs]
  cases s.inputs <;> rfl

theorem memRead (m : Alteration) (s : State) (a : Addr) :
    (m.apply s).memRead a = ((s.memRead a).1, m.apply (s.memRead a).2) := by
  have kind : (m.apply s).kindAt a = s.kindAt a := rfl
  unfold State.memRead
  rw [kind, inputByte]
  cases s.kindAt a <;> rfl

theorem indirectIf (m : Alteration) (s : State) (flag : Bool) (a : Addr) :
    (m.apply s).indirectIf flag a = ((s.indirectIf flag a).1, m.apply (s.indirectIf flag a).2) := by
  cases flag with
  | false => rfl
  | true => simp only [State.indirectIf, State.indirect, memRead, if_true]

theorem stepIndex (hm : m.Spares s.psl) (r : Reg) (x : IndexControl) :
    (m.apply s).stepIndex r x = m.apply (s.stepIndex r x) := by
  cases x with
  | plain | indexed => rfl
  | autoIncrement | autoDecrement => simp only [State.stepIndex, reg hm, setReg hm]

theorem absEA (hm : m.Spares s.psl) (r : Reg) (a : AbsOperand) :
    (m.apply s).absEA r a = { s.absEA r a with s := m.apply (s.absEA r a).s } := by
  have base : (m.apply s).indirectIf a.indirect (samePage (m.apply s).pc a.addr) =
      ((s.absBase a).1, m.apply (s.absBase a).2) :=
    indirectIf m s a.indirect (samePage s.pc a.addr)
  have spared : m.Spares (s.absBase a).2.psl := by rwa [State.absBase, indirectIf_psl]
  have stepped : m.Spares ((s.absBase a).2.stepIndex r a.index).psl := by rwa [stepIndex_psl]
  simp only [State.absEA, base, stepIndex spared, reg stepped]
  unfold State.absBase
  cases a.index <;> rfl

theorem operand (hm : m.Spares s.psl) (f : Form) :
    f.operand (m.apply s) = { f.operand s with s := m.apply (f.operand s).s } := by
  cases f with
  | regZero r => simp only [Form.operand, State.operandZ, reg hm]
  | imm r v => rfl
  | rel r l =>
    have base : (m.apply s).relEA l = ((s.relEA l).1, m.apply (s.relEA l).2) := indirectIf m s l.indirect _
    simp only [Form.operand, State.operandR, base, memRead]
  | abs r a => simp only [Form.operand, State.operandA, absEA hm, memRead]

/-- What writes back a function of PSL and the operands of a form does the same with other contents. -/
theorem exec_form (hm : m.Spares s.psl) {i : Instr} {f : Form} {g : Byte → Byte → Byte → AluResult}
    (h : RunsForm i f g) :
    ∃ t, exec i s = .next t ∧ exec i (m.apply s) = .next (m.apply t) := by
  have spared : m.Spares (f.operand s).s.psl := by rwa [Form.operand_psl]
  refine ⟨_, h s, ?_⟩
  rw [h (m.apply s), operand hm]
  have first : (m.apply (f.operand s).s).reg (f.operand s).n = (f.operand s).a := reg spared _
  simp only [Operand.put, Operand.a, first, setReg spared]
  rfl

theorem ioRead (m : Alteration) (s : State) (p : Port) :
    (m.apply s).ioRead p = ((s.ioRead p).1, m.apply (s.ioRead p).2) := by
  simp only [State.ioRead, inputByte]
  rfl

theorem memWrite (m : Alteration) (s : State) (a : Addr) (v : Byte) :
    (m.apply s).memWrite a v = m.apply (s.memWrite a v) := by
  have kind : (m.apply s).kindAt a = s.kindAt a := rfl
  unfold State.memWrite
  rw [kind]
  cases s.kindAt a <;> rfl

theorem indexedBranchEA (hm : m.Spares s.psl) (b : BranchOperand) :
    (m.apply s).indexedBranchEA b = ((s.indexedBranchEA b).1, m.apply (s.indexedBranchEA b).2) := by
  have base : (m.apply s).branchAbsEA b = ((s.branchAbsEA b).1, m.apply (s.branchAbsEA b).2) := indirectIf ..
  have spared : m.Spares (s.branchAbsEA b).2.psl := by rwa [branchAbsEA_psl]
  simp only [State.indexedBranchEA, base, reg spared]

/-- A branch goes the same way when its address does. -/
theorem branch {ea : State → Addr × State} (hea : ea (m.apply s) = ((ea s).1, m.apply (ea s).2)) (c : Bool) (len : Nat) :
    (m.apply s).branch c len ea = m.apply (s.branch c len ea) := by
  cases c with
  | true => simp only [State.branch, hea]; rfl
  | false => rfl

/-- Every instruction but calls and returns does the same with other contents, and leaves them there. -/
theorem exec_apply {i : Instr} {t : State} (hm : m.Spares s.psl) (hc : isCall i = false) (hr : isReturn i = false)
    (h : exec i s = .next t) : exec i (m.apply s) = .next (m.apply t) := by
  by_cases hf : isForm i = true
  · obtain ⟨f, g, runs⟩ := runsForm_of_isForm hf
    obtain ⟨t', h', same⟩ := exec_form hm runs
    obtain rfl := Host.Outcome.next.inj (h.symm.trans h')
    exact same
  have counted (r : Reg) (v : Byte) : m.Spares (s.setReg r v).psl := hm
  have input (p : Port) : m.Spares (s.ioRead p).2.psl := by rwa [ioRead_psl]
  cases i with
  | tpsu | tpsl | cpsl | ppsl | lpsl | cpsu | ppsu | lpsu | nop | halt => cases h; rfl
  | spsu | spsl | strz | rrr | rrl | dar | tmi | wrtc | wrtd | wrte =>
    cases h
    simp only [exec, execSpsu, execSpsl, execStrz, execRrr, execRrl, execDar, execTmi, execWrtc, execWrtd, execWrte, reg hm,
      setReg hm]
    rfl
  | redc r | redd r | rede r =>
    cases h
    simp only [exec, execRedc, execRedd, execRede, ioRead, setReg (input _)]
    rfl
  | stra r a =>
    cases h
    have spared : m.Spares (s.absEA r a).s.psl := by rwa [absEA_psl]
    simp only [exec, execStra, absEA hm, reg spared, memWrite]
    rfl
  | strr r l =>
    cases h
    have base : (m.apply s).relEA l = ((s.relEA l).1, m.apply (s.relEA l).2) := indirectIf ..
    have spared : m.Spares (s.relEA l).2.psl := by rwa [relEA_psl]
    simp only [exec, execStrr, base, reg spared, memWrite]
    rfl
  | bctr | bcta | bcfr | bcfa => cases h; exact congrArg _ (branch (indirectIf ..) _ _)
  | brnr | brna =>
    cases h
    simp only [exec, execBrnr, execBrna, reg hm]
    exact congrArg _ (branch (indirectIf ..) _ _)
  | birr | bira | bdrr | bdra =>
    cases h
    simp only [exec, execBirr, execBira, execBdrr, execBdra, reg hm, setReg hm, reg (counted _ _)]
    exact congrArg _ (branch (indirectIf ..) _ _)
  | bxa b => cases h; exact congrArg (fun e => Host.Outcome.next (goto e)) (indexedBranchEA hm b)
  | zbrr l => cases h; exact congrArg (fun e => Host.Outcome.next (goto e)) (indirectIf ..)
  | bstr | bsta | bsfr | bsfa | bsnr | bsna | bsxa | zbsr => exact absurd hc (by simp [isCall])
  | retc | rete => exact absurd hr (by simp [isReturn])
  | _ => exact absurd rfl hf

/-- A call does the same when its address does and the stack is left as it is. -/
theorem callIf {ea : State → Addr × State} (hras : m.ras = id) (hea : ea (m.apply s) = ((ea s).1, m.apply (ea s).2))
    (c : Bool) (len : Nat) : (m.apply s).callIf c len ea = m.apply (s.callIf c len ea) := by
  obtain ⟨k0, k1, k⟩ := m
  obtain rfl : k = id := hras
  cases c with
  | true => simp only [State.callIf, State.call, hea, if_true]; rfl
  | false => rfl

/-- With the stack left as it is, calls and returns too do the same. -/
theorem exec_apply_of_stack {i : Instr} {t : State} (hm : m.Spares s.psl) (hras : m.ras = id) (h : exec i s = .next t) :
    exec i (m.apply s) = .next (m.apply t) := by
  by_cases hc : isCall i = true
  · cases i with
    | bstr | bsta | bsfr | bsfa => cases h; exact congrArg _ (callIf hras (indirectIf ..) _ _)
    | bsnr | bsna =>
      cases h
      simp only [exec, execBsnr, execBsna, reg hm]
      exact congrArg _ (callIf hras (indirectIf ..) _ _)
    | bsxa b => cases h; exact congrArg _ (callIf (ea := fun s => s.indexedBranchEA b) hras (indexedBranchEA hm b) true 3)
    | zbsr l => cases h; exact congrArg _ (callIf (ea := fun s => s.zeroRelEA l) hras (indirectIf ..) true 2)
    | _ => exact nomatch hc
  by_cases hr : isReturn i = true
  · obtain ⟨k0, k1, k⟩ := m
    obtain rfl : k = id := hras
    cases i with
    | retc d | rete d =>
      cases h
      have cond : (apply ⟨k0, k1, id⟩ s).condTrue d = s.condTrue d := rfl
      simp only [exec, execRetc, execRete, cond]
      cases s.condTrue d <;> rfl
    | _ => exact nomatch hr
  exact exec_apply hm (by simpa using hc) (by simpa using hr) h

end Alteration

/-- Settles O24: other contents of one bank spare the other. -/
theorem unselectedBankUnseen : Obligations.UnselectedBankUnseen := by
  intro i s t k h
  refine ⟨fun hb => ?_, fun hb => ?_⟩
  · exact Alteration.exec_apply_of_stack (m := ⟨id, fun _ => k, id⟩) ⟨fun _ => rfl, by simp [hb]⟩ rfl h
  · exact Alteration.exec_apply_of_stack (m := ⟨fun _ => k, id, id⟩) ⟨by simp [hb], fun _ => rfl⟩ rfl h

/-- A call with other contents of the stack does the same to everything but the stack. -/
theorem callIf_unseen {s : State} {ea : State → Addr × State} (k : Vector Addr 8)
    (hea : ea { s with ras := k } = ((ea s).1, { (ea s).2 with ras := k })) (c : Bool) (len : Nat) :
    { ({ s with ras := k } : State).callIf c len ea with ras := (s.callIf c len ea).ras } = s.callIf c len ea := by
  cases c with
  | true => simp only [State.callIf, State.call, hea, if_true]; rfl
  | false => rfl

/-- Settles O25: calls write the stack, and every other instruction but a return is covered by `exec_apply`. -/
theorem stackSeenByReturnsAlone : Obligations.StackSeenByReturnsAlone := by
  intro i s t k hr h
  have spares : (⟨id, id, fun _ => k⟩ : Alteration).Spares s.psl := ⟨fun _ => rfl, fun _ => rfl⟩
  by_cases hc : isCall i = true
  · have pointer := Alteration.indirectIf ⟨id, id, fun _ => k⟩ s
    cases i with
    | bstr | bsta | bsfr | bsfa | bsnr | bsna => cases h; exact ⟨_, rfl, callIf_unseen k (pointer ..) _ _⟩
    | bsxa b =>
      have indexed := Alteration.indexedBranchEA spares b
      cases h
      exact ⟨_, rfl, callIf_unseen (ea := fun s => s.indexedBranchEA b) k indexed true 3⟩
    | zbsr l =>
      cases h
      exact ⟨_, rfl, callIf_unseen (ea := fun s => s.zeroRelEA l) k (pointer ..) true 2⟩
    | _ => exact nomatch hc
  · exact ⟨_, Alteration.exec_apply spares (by simpa using hc) hr h, rfl⟩

/-! The flag column. -/

theorem branch_psl {s : State} {ea : State → Addr × State} (hea : (ea s).2.psl = s.psl) (c : Bool) (len : Nat) :
    (s.branch c len ea).psl = s.psl := by
  cases c with
  | true => exact hea
  | false => rfl

theorem callIf_psl {s : State} {ea : State → Addr × State} (hea : (ea s).2.psl = s.psl) (c : Bool) (len : Nat) :
    (s.callIf c len ea).psl = s.psl := by
  cases c with
  | true => exact hea
  | false => rfl

/-- Every other control transfer, store, port write and write of PSU keeps PSL; the rest keep it outside their column. The
rotates are apart. -/
theorem psl_masked_of_column {i : Instr} {s t : State} (hcard : s.params.flagProfile = .card) (hw : writesPsl i = false)
    (hrot : isRotate i = false) (h : exec i s = .next t) :
    t.psl &&& ~~~(flagColumn i).mask = s.psl &&& ~~~(flagColumn i).mask := by
  have sum (f : Form) (v : Byte) (c idc ovf : Bool) :
      sumFlags (f.operand s).s.psl v c idc ovf &&& ~~~0xE5#8 = s.psl &&& ~~~0xE5#8 := by
    rw [sumFlags_masked, Form.operand_psl]
  have cc (f : Form) (v : Cond) : withCC (f.operand s).s.psl v &&& ~~~0xC0#8 = s.psl &&& ~~~0xC0#8 := by
    rw [withCC_masked, Form.operand_psl]
  cases i with
  | addz r | subz r => cases h; exact sum (.regZero r) ..
  | addi r v | subi r v => cases h; exact sum (.imm r v) ..
  | addr r l | subr r l => cases h; exact sum (.rel r l) ..
  | adda r a | suba r a => cases h; exact sum (.abs r a) ..
  | lodz r | andz r | eorz r | iorz r | comz r => cases h; exact cc (.regZero r) ..
  | lodi r v | andi r v | eori r v | iori r v | comi r v => cases h; exact cc (.imm r v) ..
  | lodr r l | andr r l | eorr r l | iorr r l | comr r l => cases h; exact cc (.rel r l) ..
  | loda r a | anda r a | eora r a | iora r a | coma r a => cases h; exact cc (.abs r a) ..
  | tmi | tpsl | tpsu => cases h; exact withCC_masked ..
  | redc | redd | rede =>
    cases h
    rw [advance_psl, setCC_psl, setReg_psl, ioRead_psl]
    exact withCC_masked ..
  | spsu | spsl | strz | dar => cases h; simp [State.setCCManual, hcard]
  | cpsl | ppsl | lpsl => exact nomatch hw
  | rrl | rrr => exact nomatch hrot
  | stra | strr => cases h; simp
  | bctr | bcta | bcfr | bcfa | brnr | brna => cases h; rw [branch_psl (indirectIf_psl ..)]
  | birr | bira | bdrr | bdra => cases h; rw [branch_psl (indirectIf_psl ..), setReg_psl]
  | bxa | zbrr => cases h; exact congrArg (· &&& _) (indirectIf_psl ..)
  | bstr | bsta | bsfr | bsfa | bsnr | bsna => cases h; rw [callIf_psl (indirectIf_psl ..)]
  | bsxa | zbsr => cases h; exact congrArg (· &&& _) (indirectIf_psl ..)
  | retc d | rete d =>
    cases h
    cases s.condTrue d <;> rfl
  | cpsu | ppsu | lpsu | nop | halt | wrtc | wrtd | wrte => cases h; rfl

theorem withC_masked (psl : Byte) (c : Bool) : withC psl c &&& ~~~0x01#8 = psl &&& ~~~0x01#8 := by
  have notC : ∀ k < 8, (0x01#8).getLsbD k = false → k ≠ 0 := by decide
  exact masked_eq fun k hk hm => (getLsbD_setBit _ _ (by decide) _ _).trans (if_neg (notC k hk hm))

/-- Under `card` a rotate writes C alone, and that only with WC = 1 (R340). -/
theorem rotateFlags_card_masked (psl old value : Byte) (out : Bool) :
    rotateFlags .card psl old value out &&& ~~~(if pslWC psl then 0x01#8 else 0x00) =
      psl &&& ~~~(if pslWC psl then 0x01#8 else 0x00) := by
  unfold rotateFlags
  cases pslWC psl with
  | false => rfl
  | true => exact withC_masked psl out

/-- Settles O17: every instruction but a rotate keeps its column, and a rotate writes C as its own rule says. -/
theorem flagColumnBoundsPslWrites : Obligations.FlagColumnBoundsPslWrites := by
  intro i s t hcard hw h
  cases hrot : isRotate i with
  | false => simpa using psl_masked_of_column hcard hw hrot h
  | true =>
    cases i with
    | rrl r | rrr r =>
      cases h
      simp only [flagColumn, FlagColumn.mask, Bool.true_and, advance_psl, setPsl_psl, rotateLeft, rotateRight, hcard,
        BitVec.ofNat_eq_ofNat, BitVec.zero_or]
      exact rotateFlags_card_masked ..
    | _ => exact nomatch hrot

end Sys2Proof.Machine
end

section
/-! DAR and decimal arithmetic (R152), then loads and stores (R300 to R307): what they write, what they leave, and what a
later load or fetch sees of a store. -/

namespace Sys2Proof.Machine

/-! Decimal adjust. -/

/-- Two bytes that agree outside a mask agree on every bit that the mask leaves out. -/
theorem bit_eq_of_masked {x y m : Byte} (h : x &&& ~~~m = y &&& ~~~m) {k : Nat} (hk : k < 8) (hm : m.getLsbD k = false) :
    x.getLsbD k = y.getLsbD k := by
  have bit := congrArg (BitVec.getLsbD · k) h
  simpa only [BitVec.getLsbD_and, BitVec.getLsbD_not, hm, hk, decide_true, Bool.not_false, Bool.and_true] using bit

/-- Ten to the high digit unless C, ten to the low digit unless IDC, no carry between them (R152). -/
theorem decimalAdjust_toNat (psl v : Byte) :
    (decimalAdjust psl v).toNat =
      (v.toNat / 16 + if pslC psl then 0 else 10) % 16 * 16 + (v.toNat % 16 + if pslIDC psl then 0 else 10) % 16 := by
  unfold decimalAdjust
  cases pslC psl <;> cases pslIDC psl <;> revert v <;> decide

/-- Settles O35: DAR writes the register; PSL is kept under `card`, and CC alone is written under `manual`. -/
theorem decimalAdjustEffect : Obligations.DecimalAdjustEffect := by
  intro r s
  have adjusted := (QuietFrame.refl s).setReg rfl r (decimalAdjust s.psl (s.reg r))
  have value : (s.setReg r (decimalAdjust s.psl (s.reg r))).reg r = decimalAdjust s.psl (s.reg r) := by
    rw [reg_setReg, if_pos rfl]
  refine ⟨_, rfl, ?_⟩
  rw [← decimalAdjust_toNat]
  cases s.params.flagProfile with
  | card => exact ⟨congrArg _ value, rfl, adjusted.setPsl rfl, rfl, rfl, fun _ => ⟨rfl, rfl⟩⟩
  | manual =>
    refine ⟨?_, rfl, adjusted.setPsl (withCC_masked ..), rfl, rfl, nofun⟩
    have bank := reg_setPsl (s.setReg r (decimalAdjust s.psl (s.reg r))) (withCC s.psl (Config.freeCond s.freeCount)) r
    rw [pslRS_withCC] at bank
    exact congrArg _ (bank.trans value)

/-! Decimal arithmetic. -/

theorem packed_le {n : Nat} (h : n < 100) : packed n ≤ 0x99 := by
  unfold packed
  omega

theorem packed_digits (a : Nat) {b : Nat} (hb : b < 10) : packed (10 * a + b) = 16 * a + b := by
  unfold packed
  omega

/-- A number below 100 by its digits. -/
theorem exists_digits {n : Nat} (h : n < 100) : ∃ a b, a < 10 ∧ b < 10 ∧ n = 10 * a + b :=
  ⟨n / 10, n % 10, by omega, by omega, by omega⟩

/-- DAR of a sum that has 0x66 in it gives the digits of the decimal sum: a digit whose sum reached 10 has carried, and only
the others still hold the six. -/
theorem decimal_sum {m n : Nat} (hm : m < 100) (hn : n < 100) :
    let sum := packed m + 0x66 + packed n
    (sum % 256 / 16 + if 255 < sum then 0 else 10) % 16 * 16 +
        (sum % 256 % 16 + if 15 < (packed m + 0x66) % 16 + packed n % 16 then 0 else 10) % 16 = packed ((m + n) % 100) ∧
      (255 < sum ↔ 100 ≤ m + n) := by
  intro sum
  obtain ⟨a, b, ha, hb, rfl⟩ := exists_digits hm
  obtain ⟨c, d, hc, hd, rfl⟩ := exists_digits hn
  simp only [packed_digits _ hb, packed_digits _ hd, sum]
  refine ⟨?_, by omega⟩
  have result (x y : Nat) (hy : y < 10) (e : (10 * a + b + (10 * c + d)) % 100 = 10 * x + y) :
      packed ((10 * a + b + (10 * c + d)) % 100) = 16 * x + y := by
    rw [e, packed_digits x hy]
  by_cases low : 10 ≤ b + d
  · by_cases high : 10 ≤ a + c + 1
    · rw [result (a + c + 1 - 10) (b + d - 10) (by omega) (by omega), if_pos (by omega), if_pos (by omega)]
      omega
    · rw [result (a + c + 1) (b + d - 10) (by omega) (by omega), if_neg (by omega), if_pos (by omega)]
      omega
  · by_cases high : 10 ≤ a + c
    · rw [result (a + c - 10) (b + d) (by omega) (by omega), if_pos (by omega), if_neg (by omega)]
      omega
    · rw [result (a + c) (b + d) (by omega) (by omega), if_neg (by omega), if_neg (by omega)]
      omega

/-- DAR of a difference gives the digits of the decimal difference: a digit that borrowed is six too high, and ten more modulo
16 takes the six off. -/
theorem decimal_difference {m n v : Nat} (hm : m < 100) (hn : n < 100)
    (hv : (v : Int) = ((packed m : Int) - packed n) % 256) :
    (v / 16 + if 0 ≤ (packed m : Int) - packed n then 0 else 10) % 16 * 16 +
        (v % 16 + if packed n % 16 ≤ packed m % 16 then 0 else 10) % 16 = packed ((100 + m - n) % 100) ∧
      (0 ≤ (packed m : Int) - packed n ↔ n ≤ m) := by
  obtain ⟨a, b, ha, hb, rfl⟩ := exists_digits hm
  obtain ⟨c, d, hc, hd, rfl⟩ := exists_digits hn
  rw [packed_digits _ hb, packed_digits _ hd] at *
  refine ⟨?_, by omega⟩
  have result (x y : Nat) (hy : y < 10) (e : (100 + (10 * a + b) - (10 * c + d)) % 100 = 10 * x + y) :
      packed ((100 + (10 * a + b) - (10 * c + d)) % 100) = 16 * x + y := by
    rw [e, packed_digits x hy]
  by_cases low : d ≤ b
  · by_cases high : c ≤ a
    · rw [result (a - c) (b - d) (by omega) (by omega), if_pos (by omega), if_pos (by omega)]
      omega
    · rw [result (a + 10 - c) (b - d) (by omega) (by omega), if_neg (by omega), if_pos (by omega)]
      omega
  · by_cases high : c + 1 ≤ a
    · rw [result (a - c - 1) (b + 10 - d) (by omega) (by omega), if_pos (by omega), if_neg (by omega)]
      omega
    · rw [result (a + 10 - c - 1) (b + 10 - d) (by omega) (by omega), if_neg (by omega), if_neg (by omega)]
      omega

/-- With WC = 0, ADDI adds two bytes and leaves WC as it is. -/
theorem addi_without_carry (r : Reg) (b : Byte) {s : State} (hwc : pslWC s.psl = false) :
    ∃ t, exec (.addi r b) s = .next t ∧ (t.reg r).toNat = ((s.reg r).toNat + b.toNat) % 256 ∧
      (pslC t.psl = true ↔ 255 < (s.reg r).toNat + b.toNat) ∧
      (pslIDC t.psl = true ↔ 15 < (s.reg r).toNat % 16 + b.toNat % 16) ∧ pslWC t.psl = false := by
  obtain ⟨t, exec_t, ⟨value, c, idc, -, -⟩, -, ⟨⟨-, psl, -⟩, -⟩, -⟩ := addEffect (.imm r b) s
  have none : carryIn s = 0 := by simp [carryIn, hwc]
  rw [none] at value c idc
  exact ⟨t, exec_t, value, c, idc, (bit_eq_of_masked psl (k := 3) (by decide) rfl).trans hwc⟩

/-- With WC = 0, SUBI subtracts two bytes. -/
theorem subi_without_borrow (r : Reg) (b : Byte) {s : State} (hwc : pslWC s.psl = false) :
    ∃ t, exec (.subi r b) s = .next t ∧ ((t.reg r).toNat : Int) = ((s.reg r).toNat - b.toNat : Int) % 256 ∧
      (pslC t.psl = true ↔ (0 : Int) ≤ (s.reg r).toNat - b.toNat) ∧
      (pslIDC t.psl = true ↔ b.toNat % 16 ≤ (s.reg r).toNat % 16) := by
  obtain ⟨t, exec_t, ⟨value, c, idc, -, -⟩, -⟩ := subtractEffect (.imm r b) s
  have none : borrowIn s = 0 := by simp [borrowIn, hwc]
  rw [none] at value c idc
  simp only [Nat.cast_zero, sub_zero, add_zero] at value c idc
  exact ⟨t, exec_t, value, c, idc⟩

/-- DAR as the digits it leaves; C is kept. -/
theorem dar_digits (r : Reg) (s : State) :
    ∃ t, exec (.dar r) s = .next t ∧ pslC t.psl = pslC s.psl ∧
      (t.reg r).toNat =
        ((s.reg r).toNat / 16 + if pslC s.psl then 0 else 10) % 16 * 16 +
          ((s.reg r).toNat % 16 + if pslIDC s.psl then 0 else 10) % 16 := by
  obtain ⟨t, exec_t, value, -, ⟨⟨-, psl, -⟩, -⟩, -⟩ := decimalAdjustEffect r s
  exact ⟨t, exec_t, bit_eq_of_masked psl (k := 0) (by decide) rfl, value⟩

/-- Settles O36: the three instructions in numbers, then `decimal_sum` and `decimal_difference`. -/
theorem decimalArithmetic : Obligations.DecimalArithmetic := by
  intro r m n s hm hn hwc hr
  have byte {k : Nat} (hk : k < 100) : (BitVec.ofNat 8 (packed k)).toNat = packed k := by
    have := packed_le hk
    rw [BitVec.toNat_ofNat]
    omega
  have first : (s.reg r).toNat = packed m := by rw [hr, byte hm]
  have second := byte hn
  constructor
  · obtain ⟨t, exec_t, six, -, -, hwc'⟩ := addi_without_carry r 0x66 hwc
    obtain ⟨u, exec_u, sum, c, idc, -⟩ := addi_without_carry r (BitVec.ofNat 8 (packed n)) hwc'
    obtain ⟨v, exec_v, kept, digits⟩ := dar_digits r u
    have six : (t.reg r).toNat = packed m + 0x66 := by
      have := packed_le hm
      have literal : (0x66 : Byte).toNat = 0x66 := rfl
      rw [six, first]
      omega
    obtain ⟨value, carry⟩ := decimal_sum hm hn
    rw [six, second] at sum c idc
    refine ⟨t, u, v, exec_t, exec_u, exec_v, ?_, ?_⟩
    · rw [digits, sum, ← value]
      simp only [c, idc]
    · rw [kept, c, carry]
  · obtain ⟨t, exec_t, diff, c, idc⟩ := subi_without_borrow r (BitVec.ofNat 8 (packed n)) hwc
    obtain ⟨u, exec_u, kept, digits⟩ := dar_digits r t
    rw [first, second] at diff c idc
    obtain ⟨value, borrow⟩ := decimal_difference hm hn diff
    refine ⟨t, u, exec_t, exec_u, ?_, ?_⟩
    · rw [digits, ← value]
      simp only [c, idc]
    · rw [kept, c, borrow]

/-! Loads and stores. -/

/-- Settles O39: a load is `result` of the second operand. -/
theorem loadEffect : Obligations.LoadEffect :=
  fun f s => ⟨_, exec_lod f s, result_effect f s _⟩

/-- `AbsEA` changes no register but an index that it steps (R109). -/
theorem regsKept_absEA (s : State) (r : Reg) (a : AbsOperand) : RegsKept s (s.absEA r a).s (steppedIndex r a) := by
  intro b n hn
  have read : (s.operandA r a).s.regAt b n = (s.absEA r a).s.regAt b n :=
    regAt_congr (memRead_r0 ..) (memRead_bank0 ..) (memRead_bank1 ..) b n
  rw [← read, regsKept_operandA s r a b n hn]

/-- A store after an address computation changes no register, flag or pin, and of memory the addressed byte alone. -/
theorem store_effect {s u : State} {ns : List Reg} (regs : RegsKept s u ns) (calm : Calm s u) (psl : u.psl = s.psl) (a : Addr)
    (v : Byte) (len : Nat) :
    let t := (u.memWrite a v).advance len
    StoredAt u t a v ∧ t.pc = s.nextAddr len ∧ Frame s t ns 0 0 ∧ t.ras = s.ras ∧ (∀ n, t.reg n = u.reg n) ∧
      ∀ b, b ≠ a → t.peek b = s.peek b := by
  intro t
  have regs_t : RegsKept s t ns := fun b n hn =>
    (regAt_congr (memWrite_r0 ..) (memWrite_bank0 ..) (memWrite_bank1 ..) b n).trans (regs b n hn)
  refine ⟨storedAt_memWrite u a v, ?_, ⟨regs_t, ?_⟩, ?_, fun n => reg_memWrite u a v n, fun b hb => ?_⟩
  · simp [t, State.nextAddr, calm.pc]
  · simp [t, psl, calm.psu, calm.waiting, calm.params, calm.pins, calm.schedule]
  · simp [t, calm.ras]
  · exact (peek_memWrite_other u v hb).trans (by rw [State.peek, calm.mem, State.peek])

/-- Settles O40: both stores are a write at the address that their operand names. -/
theorem storeEffect : Obligations.StoreEffect := by
  intro r s
  refine ⟨fun a => ⟨_, rfl, ?_⟩, fun l => ⟨_, rfl, ?_⟩⟩
  · exact store_effect (regsKept_absEA s r a) (calm_absEA s r a) (absEA_psl ..) _ _ 3
  · obtain ⟨⟨regs, -⟩, -⟩ := indirectIf_quietFrame s l.indirect (inpage (s.nextAddr 2) (sext7 l.disp))
    obtain ⟨stored, pc, frame, ras, -, others⟩ :=
      store_effect regs (calm_indirectIf ..) (relEA_psl s l) (s.relEA l).1 ((s.relEA l).2.reg r) 2
    rw [show (s.relEA l).2.reg r = s.reg r from reg_indirectIf ..] at *
    exact ⟨stored, pc, frame, ras, others⟩

/-! CC under `FLAG_PROFILE = manual`. -/

@[simp] theorem reg_setCCManual (s : State) (v : Byte) (n : Reg) : (s.setCCManual v).reg n = s.reg n := by
  have bank : pslRS (s.setCCManual v).psl = pslRS s.psl := by
    unfold State.setCCManual
    cases s.params.flagProfile with
    | card => rfl
    | manual => exact pslRS_withCC ..
  exact reg_congr (s := s) (t := s.setCCManual v) rfl rfl rfl bank n

/-- What the moves do to PSL: nothing under `card`, CC from the byte moved under `manual` (R261, R306). -/
theorem setCCManual_effect (s : State) (v : Byte) :
    (s.setCCManual v).psl &&& ~~~0xC0#8 = s.psl &&& ~~~0xC0#8 ∧
      (s.params.flagProfile = .card → (s.setCCManual v).psl = s.psl) ∧
      (s.params.flagProfile = .manual → CcSays (pslCC (s.setCCManual v).psl) v) := by
  unfold State.setCCManual
  cases s.params.flagProfile with
  | card => exact ⟨rfl, fun _ => rfl, nofun⟩
  | manual => exact ⟨withCC_masked .., nofun, fun _ => by rw [setPsl_psl, pslCC_withCC]; exact ccOf_says v⟩

/-- A move to a register with CC under `manual`, and the next instruction (R261, R306). -/
theorem move_effect (s : State) (r : Reg) (v : Byte) (len : Nat) :
    let t := ((s.setReg r v).setCCManual v).advance len
    t.reg r = v ∧ t.pc = s.nextAddr len ∧ QuietFrame s t [r] 0xC0 0 ∧ SameTraffic s t ∧
      (s.params.flagProfile = .card → t.psl = s.psl) ∧ (s.params.flagProfile = .manual → CcSays (pslCC t.psl) v) := by
  intro t
  obtain ⟨masked, card, manual⟩ := setCCManual_effect (s.setReg r v) v
  refine ⟨?_, rfl, ((QuietFrame.refl s).setReg rfl r v).setPsl masked, ⟨rfl, rfl, rfl⟩, card, manual⟩
  rw [reg_advance, reg_setCCManual, reg_setReg, if_pos rfl]

/-- Settles O41: STRZ is a move of R0. -/
theorem storeRegisterZeroEffect : Obligations.StoreRegisterZeroEffect :=
  fun r s => ⟨_, rfl, move_effect s r s.r0 1⟩

/-! What is seen of a store. -/

/-- A byte stored in RAM is the byte held and read there in any later state with the same memory and map (R62, R63). -/
theorem read_of_stored {s u : State} {a : Addr} {v : Byte} (hm : Memory.wf s.mem) (hk : s.kindAt a = .ram)
    (hmem : u.mem = (s.memWrite a v).mem) (hparams : u.params = s.params) : u.peek a = v ∧ u.memRead a = (v, u) := by
  have kind : u.kindAt a = .ram := by rw [State.kindAt, hparams]; exact hk
  have held : u.peek a = v := by
    rw [State.peek, hmem]
    exact peek_memWrite_same hm v hk
  exact ⟨held, by rw [memRead_plain (by rw [kind]; rfl), held]⟩

/-- Settles O42: the load reads the byte that the store wrote. -/
theorem storeThenLoad : Obligations.StoreThenLoad := by
  intro r addr s t u v hm hk hstore ⟨hmem, hparams, hpage⟩ hload
  cases hstore
  cases hload
  obtain ⟨-, read⟩ := read_of_stored (u := u) (v := s.reg r) hm hk hmem (hparams.trans (memWrite_params ..))
  have operand : u.operandA r { indirect := false, index := .plain, addr := addr } = { n := r, b := s.reg r, s := u } := by
    rw [State.operandA, absEA_of_plain u r rfl, State.absBase, State.indirectIf, if_neg (by simp), hpage, read]
  obtain ⟨reg, cc, -⟩ := result_effect (.abs r { indirect := false, index := .plain, addr := addr }) u (s.reg r)
  rw [Form.operand, operand] at reg cc
  rw [operand]
  exact ⟨reg, cc⟩

theorem inpage_zero (a : Addr) : inpage a 0 = a := by
  apply BitVec.eq_of_toNat_eq
  have := a.isLt
  have zero : (0 : BitVec 13).toNat = 0 := rfl
  rw [inpage_toNat, zero]
  omega

/-- Settles O43: with displacement 0 the store goes to the next instruction's address, which is pc after it. -/
theorem storeIsFetched : Obligations.StoreIsFetched := by
  intro r s t hm hk h
  cases h
  have target : s.relEA { indirect := false, disp := 0 } = (s.nextAddr 2, s) :=
    congrArg (·, s) (inpage_zero (s.nextAddr 2))
  rw [target]
  have pc : ((s.memWrite (s.nextAddr 2) (s.reg r)).advance 2).pc = s.nextAddr 2 := by
    rw [advance_pc, State.nextAddr, memWrite_pc, State.nextAddr]
  obtain ⟨held, read⟩ :=
    read_of_stored (u := (s.memWrite (s.nextAddr 2) (s.reg r)).advance 2) hm hk rfl (memWrite_params ..)
  rw [pc, read]
  exact ⟨congrArg some (by rw [pc]; exact held), rfl⟩

end Sys2Proof.Machine
end

section
/-! Branches (R201 to R214), then the return address stack over more than one instruction: a call and its return, many pushes,
an interrupt and its RETE (R51 to R53, R243, R358 to R362). -/

namespace Sys2Proof.Machine

/-- An instruction leaves what is said of the state that it is said to leave. -/
theorem of_exec {i : Instr} {s t : State} {P : State → Prop} (h : exec i s = .next t)
    (he : ∃ t', exec i s = .next t' ∧ P t') : P t := by
  obtain ⟨t', h', ht⟩ := he
  obtain rfl := Host.Outcome.next.inj (h.symm.trans h')
  exact ht

/-! Branches. -/

/-- A branch whose address computation is quiet goes to the address or on, and changes nothing else (R201). -/
theorem branch_effect {s : State} {ea : State → Addr × State} {c : Bool} {taken : Prop}
    (quiet : QuietFrame s (ea s).2 [] 0 0) (len : Nat) (htaken : c = true ↔ taken) :
    WentTo s (s.branch c len ea) taken len (ea s) ∧ QuietFrame s (s.branch c len ea) [] 0 0 := by
  cases c with
  | true =>
    have ht := htaken.mp rfl
    exact ⟨⟨fun _ => ⟨rfl, rfl, rfl, rfl⟩, absurd ht⟩, quiet⟩
  | false =>
    have hn : ¬taken := fun ht => Bool.false_ne_true (htaken.mpr ht)
    exact ⟨⟨fun ht => absurd ht hn, fun _ => ⟨rfl, rfl, rfl, rfl⟩⟩, (QuietFrame.refl s).advance len⟩

/-- Settles O44: the four branches differ in their condition and in their address. -/
theorem conditionalBranches : Obligations.ConditionalBranches := by
  intro d s
  have quiet := indirectIf_quietFrame s
  exact ⟨fun l => ⟨_, rfl, branch_effect (quiet ..) 2 (condTrue_iff s d)⟩,
    fun b => ⟨_, rfl, branch_effect (quiet ..) 3 (condTrue_iff s d)⟩,
    fun l => ⟨_, rfl, branch_effect (quiet ..) 2 (condFalse_iff s d)⟩,
    fun b => ⟨_, rfl, branch_effect (quiet ..) 3 (condFalse_iff s d)⟩⟩

/-- For d other than 3 the false condition is the negation of the true one, under both values of `COND3` (R200). -/
theorem condFalse_eq_not (s : State) {d : Cond} (hd : d ≠ 3) : s.condFalse d = !s.condTrue d := by
  have h := condTrue_iff s d
  simp only [CondHolds, hd, false_and, false_or] at h
  rw [Bool.eq_iff_iff, condFalse_iff, Bool.not_eq_true', ← Bool.not_eq_true, h]

/-- Settles O45: the two conditions are each other's negation. -/
theorem conditionsAreComplementary : Obligations.ConditionsAreComplementary := by
  intro d s t u hd
  refine ⟨fun l ht hu => ?_, fun b ht hu => ?_⟩
  all_goals
    cases ht
    cases hu
    rw [condFalse_eq_not s hd]
    cases s.condTrue d with
    | true => exact .inl ⟨rfl, rfl⟩
    | false => exact .inr ⟨rfl, rfl⟩

/-- A register write before an address computation is a register write after it. -/
theorem indirectIf_setReg (s : State) (r : Reg) (v : Byte) (flag : Bool) (a : Addr) :
    (s.setReg r v).indirectIf flag a = ((s.indirectIf flag a).1, (s.indirectIf flag a).2.setReg r v) := by
  cases flag with
  | false => rfl
  | true => simp only [State.indirectIf, State.indirect, memRead_setReg, if_true]

/-- A branch that counts a register first: the register written, then the branch on its new value (R207 to R210). -/
theorem counted_branch_effect {s : State} {ea : State → Addr × State} (r : Reg) (v : Byte)
    (quiet : QuietFrame s (ea s).2 [] 0 0) (hea : ea (s.setReg r v) = ((ea s).1, (ea s).2.setReg r v)) (len : Nat) :
    let t := (s.setReg r v).branch ((s.setReg r v).reg r != 0) len ea
    t.reg r = v ∧ WentTo s t (t.reg r ≠ 0) len (ea s) ∧ QuietFrame s t [r] 0 0 := by
  have written (u : State) : (u.setReg r v).reg r = v := by rw [reg_setReg, if_pos rfl]
  have bank : pslRS (ea s).2.psl = pslRS s.psl := by
    obtain ⟨⟨-, psl, -⟩, -⟩ := quiet
    exact pslRS_eq_of_masked psl rfl
  rw [written]
  by_cases hv : v = 0
  · subst hv
    exact ⟨written s, ⟨fun ht => absurd (written s) ht, fun _ => ⟨rfl, rfl, rfl, rfl⟩⟩,
      (QuietFrame.refl s).setReg rfl r _⟩
  · have go : (s.setReg r v).branch (v != 0) len ea = goto ((ea s).1, (ea s).2.setReg r v) := by
      rw [← hea, State.branch, if_pos (bne_iff_ne.mpr hv)]
    have reg : (goto ((ea s).1, (ea s).2.setReg r v)).reg r = v := written (ea s).2
    intro t
    rw [show t = _ from go, reg]
    exact ⟨rfl, ⟨fun _ => ⟨rfl, rfl, rfl, rfl⟩, absurd hv⟩, quiet.setReg bank r v⟩

/-- Settles O46: BRN tests the register as it is, BIR and BDR count it first. -/
theorem registerBranches : Obligations.RegisterBranches := by
  intro r s
  have quiet := indirectIf_quietFrame s
  have nonzero : (s.reg r != 0) = true ↔ s.reg r ≠ 0 := bne_iff_ne
  have up : (s.reg r + 1).toNat = ((s.reg r).toNat + 1) % 256 := BitVec.toNat_add ..
  have down : (s.reg r - 1).toNat = ((s.reg r).toNat + 255) % 256 := by rw [BitVec.toNat_sub, Nat.add_comm]; rfl
  refine ⟨fun l => ⟨_, rfl, branch_effect (quiet ..) 2 nonzero⟩,
    fun b => ⟨_, rfl, branch_effect (quiet ..) 3 nonzero⟩,
    fun l => ⟨_, rfl, ?_⟩, fun b => ⟨_, rfl, ?_⟩, fun l => ⟨_, rfl, ?_⟩, fun b => ⟨_, rfl, ?_⟩⟩
  · obtain ⟨reg, rest⟩ := counted_branch_effect (ea := fun s => s.relEA l) r _ (quiet ..) (indirectIf_setReg ..) 2
    exact ⟨(congrArg _ reg).trans up, rest⟩
  · obtain ⟨reg, rest⟩ := counted_branch_effect (ea := fun s => s.branchAbsEA b) r _ (quiet ..) (indirectIf_setReg ..) 3
    exact ⟨(congrArg _ reg).trans up, rest⟩
  · obtain ⟨reg, rest⟩ := counted_branch_effect (ea := fun s => s.relEA l) r _ (quiet ..) (indirectIf_setReg ..) 2
    exact ⟨(congrArg _ reg).trans down, rest⟩
  · obtain ⟨reg, rest⟩ := counted_branch_effect (ea := fun s => s.branchAbsEA b) r _ (quiet ..) (indirectIf_setReg ..) 3
    exact ⟨(congrArg _ reg).trans down, rest⟩

/-- Settles O47: both go to their address, and finding it is quiet. -/
theorem unconditionalBranches : Obligations.UnconditionalBranches := by
  intro s
  have quiet := indirectIf_quietFrame s
  exact ⟨fun b => ⟨_, rfl, indexedBranchEA_toNat s b, ⟨rfl, rfl, rfl⟩, quiet ..⟩,
    fun l => ⟨_, _, rfl, zeroRelEA_target s l, rfl, ⟨rfl, rfl, rfl⟩, quiet ..⟩⟩

/-! The stack over more than one instruction. -/

/-- Every call does what `Called` says, for some condition and some address (R230). -/
theorem called_of_isCall {i : Instr} (hc : isCall i = true) {s t : State} (h : exec i s = .next t) :
    ∃ taken e, Called s t taken (instrLength i) e := by
  obtain ⟨bstr, bsta, bsfr, bsfa, bsnr, bsna, bsxa, zbsr⟩ := callEffect s
  cases i with
  | bstr d l => exact ⟨_, _, of_exec h (bstr d l)⟩
  | bsta d b => exact ⟨_, _, of_exec h (bsta d b)⟩
  | bsfr d l => exact ⟨_, _, of_exec h (bsfr d l)⟩
  | bsfa d b => exact ⟨_, _, of_exec h (bsfa d b)⟩
  | bsnr r l => exact ⟨_, _, of_exec h (bsnr r l)⟩
  | bsna r b => exact ⟨_, _, of_exec h (bsna r b)⟩
  | bsxa b => exact ⟨_, _, of_exec h (bsxa b)⟩
  | zbsr l => exact ⟨_, _, of_exec h (zbsr l)⟩
  | _ => exact nomatch hc

/-- Both returns do what `Returned` says, for some condition (R231). -/
theorem returned_of_isReturn {i : Instr} (hr : isReturn i = true) {s t : State} (h : exec i s = .next t) :
    ∃ taken, Returned s t taken := by
  cases i with
  | retc d =>
    obtain ⟨retc, -⟩ := returnEffect d s
    obtain ⟨returned, -⟩ := of_exec h retc
    exact ⟨_, returned⟩
  | rete d =>
    obtain ⟨-, rete⟩ := returnEffect d s
    obtain ⟨returned, -⟩ := of_exec h rete
    exact ⟨_, returned⟩
  | _ => exact nomatch hr

/-- Settles O50: SP changed, so the call pushed and the return popped, and the entry popped is the one pushed. -/
theorem callThenReturn : Obligations.CallThenReturn := by
  intro i j s t u v hi hj hcall hpushed hras hsp hret hpopped
  obtain ⟨called, e, -, -, -, pushed, notPushed⟩ := called_of_isCall hi hcall
  obtain ⟨returned, popped, notPopped⟩ := returned_of_isReturn hj hret
  have hc : called := by
    by_contra hn
    obtain ⟨-, psu⟩ := notPushed hn
    exact hpushed (by rw [psu])
  have hr : returned := by
    by_contra hn
    obtain ⟨psu, -⟩ := notPopped hn
    exact hpopped (by rw [psu])
  obtain ⟨up, entry, -⟩ := pushed hc
  obtain ⟨down, pc⟩ := popped hr
  have back : psuSP u.psu - 1 = psuSP s.psu := by rw [hsp, up, BitVec.add_sub_cancel]
  exact ⟨by rw [pc, back, hras, entry], by rw [down, back]⟩

theorem pushAll_append (s : State) (vs : List Addr) (v : Addr) : pushAll s (vs ++ [v]) = (pushAll s vs).push v := by
  simp [pushAll]

/-- Settles O51, by induction on the pushes, the last one apart: it stands at SP, at most seven entries after any that the
statement still speaks of. -/
theorem stackHoldsEightAddresses : Obligations.StackHoldsEightAddresses := by
  intro s vs
  induction vs using List.reverseRecOn with
  | nil => exact ⟨by simp [pushAll], nofun⟩
  | append_singleton vs v ih =>
    obtain ⟨sp, entries⟩ := ih
    rw [pushAll_append]
    refine ⟨?_, fun k hk hlen => ?_⟩
    · rw [push_psu, psuSP_withSP, sp, List.length_append, BitVec.ofNat_add, BitVec.add_assoc]
      rfl
    · rw [List.length_append, List.length_singleton] at hk hlen
      rw [rasEntry_push, sp]
      rcases Nat.lt_or_ge k vs.length with hlt | hge
      · rw [if_neg, entries k hlt (by omega), List.getElem_append_left hlt]
        intro heq
        have same := congrArg BitVec.toNat (((BitVec.add_right_inj _).mp heq))
        rw [BitVec.toNat_ofNat, BitVec.toNat_ofNat] at same
        omega
      · obtain rfl : k = vs.length := by omega
        simp

/-- Settles O52: entry pushes the address after the HALT, and the RETE pops it. -/
theorem interruptReturnsAfterHalt : Obligations.InterruptReturnsAfterHalt := by
  intro d s t u v p hhalt hII hreset hreq hstep
  cases hhalt
  have entered := step_of_interrupt (s := { ({ s with waiting := true } : State).advance 1 with pins := p, schedule := [] })
    hreset hreq hII
  obtain rfl := Host.Outcome.next.inj (hstep.symm.trans entered)
  obtain ⟨inhibit, sp, -⟩ := interruptEntry_psu_effect
    { ({ s with waiting := true } : State).advance 1 with pins := p, schedule := [] }
  refine ⟨by rw [tick_psu, inhibit], fun h hras hsp hcond hrete => ?_⟩
  obtain ⟨-, rete⟩ := returnEffect d h
  obtain ⟨⟨popped, -⟩, -, -, cleared⟩ := of_exec hrete rete
  obtain ⟨down, pc⟩ := popped hcond
  have back : psuSP h.psu - 1 = psuSP s.psu := by
    rw [hsp, tick_psu, sp, BitVec.add_sub_cancel]
    rfl
  refine ⟨?_, cleared hcond, by rw [down, back], by rw [tick_waiting, interruptEntry_waiting]⟩
  rw [pc, back, hras, tick_ras, rasEntry_interruptEntry]
  exact if_pos rfl

end Sys2Proof.Machine
end

section
/-! The program status instructions (R263 to R273), HALT and NOP (R290, R291), the ports (R322 to R327). -/

namespace Sys2Proof.Machine

/-- Clearing the bits of a mask, bit by bit. -/
theorem getLsbD_and_not (x m : Byte) {k : Nat} (hk : k < 8) :
    (x &&& ~~~m).getLsbD k = (x.getLsbD k && !m.getLsbD k) := by
  simp only [BitVec.getLsbD_and, BitVec.getLsbD_not, hk, decide_true, Bool.true_and]

/-! PSL. -/

/-- Settles O53: the masks and LPSL are writes of PSL, SPSL a move to R0. -/
theorem pslEffect : Obligations.PslEffect := by
  intro s
  have frame := QuietFrame.refl s
  refine ⟨fun mask => ⟨_, rfl, fun k hk => ?_, rfl, (frame.setPsl (masked_eq fun k hk hm => ?_)).advance 2, rfl,
      rfl, rfl⟩,
    fun mask => ⟨_, rfl, fun k _ => ?_, rfl, (frame.setPsl (masked_eq fun k _ hm => ?_)).advance 2, rfl, rfl, rfl⟩,
    ⟨_, rfl, rfl, rfl, (frame.setPsl ?_).advance 1, rfl, rfl, rfl⟩, ⟨_, rfl, move_effect s .r0 s.psl 1⟩⟩
  · exact getLsbD_and_not s.psl mask hk
  · rw [getLsbD_and_not _ _ hk, hm, Bool.not_false, Bool.and_true]
  · exact BitVec.getLsbD_or
  · rw [BitVec.getLsbD_or, hm, Bool.or_false]
  · exact (BitVec.and_zero ..).trans (BitVec.and_zero ..).symm

/-! PSU. -/

/-- The write mask holds the writable bits (R34, R36). -/
theorem psuWriteMask_iff (p : Config.Psu43) {k : Nat} (hk : k < 8) :
    (psuWriteMask p).getLsbD k = true ↔ PsuWritable p k := by
  unfold PsuWritable
  cases p <;> revert k <;> decide

/-- Bit 7, the SENSE pin, is not writable (R31, R36). -/
theorem not_psuWritable_seven (p : Config.Psu43) : ¬PsuWritable p 7 := by
  unfold PsuWritable
  omega

/-- `WritePSU` in bits (R36). -/
theorem getLsbD_writePsu (s : State) (v : Byte) {k : Nat} (hk : k < 8) :
    (PsuWritable s.params.psu43 k → (s.writePsu v).psu.getLsbD k = v.getLsbD k) ∧
      (¬PsuWritable s.params.psu43 k → (s.writePsu v).psu.getLsbD k = s.psu.getLsbD k) := by
  rw [← psuWriteMask_iff _ hk]
  simp only [State.writePsu, BitVec.getLsbD_and, BitVec.getLsbD_or, BitVec.getLsbD_not, hk, decide_true, Bool.true_and]
  cases (psuWriteMask s.params.psu43).getLsbD k <;> simp

/-- A write of PSU changes at most the writable bits that its value changes. -/
theorem writePsu_quietFrame {s : State} {v mask : Byte}
    (hv : ∀ k < 8, PsuWritable s.params.psu43 k → mask.getLsbD k = false → v.getLsbD k = s.psu.getLsbD k) :
    QuietFrame s (s.writePsu v) [] 0 mask := by
  refine ⟨⟨fun _ _ _ => rfl, rfl, masked_eq fun k hk hm => ?_, rfl, rfl, rfl, rfl⟩, fun _ => rfl, rfl⟩
  obtain ⟨written, kept⟩ := getLsbD_writePsu s v hk
  by_cases hw : PsuWritable s.params.psu43 k
  · rw [written hw, hv k hk hw hm]
  · exact kept hw

/-- `ReadPSU` in bits: SENSE, the writable bits, 0 (R31, R34, R36). -/
theorem getLsbD_readPsu (s : State) (k : Nat) :
    s.readPsu.getLsbD k = if k = 7 then s.pins.sense else (psuWriteMask s.params.psu43).getLsbD k && s.psu.getLsbD k := by
  rw [State.readPsu, getLsbD_setBit _ _ (by decide), BitVec.getLsbD_and, Bool.and_comm]

/-- `ReadPSU` below bit 7, where PSU has a bit to read and where not. -/
theorem readPsu_bits (s : State) {k : Nat} (hk : k < 7) :
    (PsuWritable s.params.psu43 k → s.readPsu.getLsbD k = s.psu.getLsbD k) ∧
      (¬PsuWritable s.params.psu43 k → s.readPsu.getLsbD k = false) := by
  rw [← psuWriteMask_iff _ (by omega), getLsbD_readPsu s k, if_neg (by omega)]
  cases (psuWriteMask s.params.psu43).getLsbD k <;> simp

/-- Settles O54: CPSU, PPSU and LPSU are writes of PSU, SPSU a move of PSU as it reads to R0. -/
theorem psuEffect : Obligations.PsuEffect := by
  intro s
  refine ⟨fun mask => ⟨_, rfl, fun k hk => ?_, rfl, writePsu_quietFrame fun k hk _ hm => ?_, rfl, rfl, rfl⟩,
    fun mask => ⟨_, rfl, fun k hk => ?_, rfl, writePsu_quietFrame fun k _ _ hm => ?_, rfl, rfl, rfl⟩,
    ⟨_, rfl, fun k hk => getLsbD_writePsu s s.r0 hk, rfl, writePsu_quietFrame fun k hk hw hm => ?_, rfl, rfl, rfl⟩,
    ⟨_, rfl, ?_⟩⟩
  · rw [← getLsbD_and_not _ _ hk]
    exact getLsbD_writePsu s (s.psu &&& ~~~mask) hk
  · rw [getLsbD_and_not _ _ hk, hm, Bool.not_false, Bool.and_true]
  · rw [← BitVec.getLsbD_or]
    exact getLsbD_writePsu s (s.psu ||| mask) hk
  · rw [BitVec.getLsbD_or, hm, Bool.or_false]
  · have seven : ∀ k < 8, (0x7F#8).getLsbD k = false → k = 7 := by decide
    obtain rfl := seven k hk hm
    exact absurd hw (not_psuWritable_seven _)
  · obtain ⟨reg, pc, frame, traffic, card, manual⟩ := move_effect s .r0 s.readPsu 1
    refine ⟨?_, fun k hk => ?_, pc, frame, traffic, card, fun hp => ?_⟩
    · exact (congrArg (BitVec.getLsbD · 7) reg).trans (getLsbD_readPsu s 7)
    · exact reg ▸ readPsu_bits s hk
    · exact reg ▸ manual hp

/-- Settles O55: for PSU bit by bit, a writable bit through R0, the others 0 by the invariant. -/
theorem statusSaveRestore : Obligations.StatusSaveRestore := by
  intro s t u v hr0 hparams
  refine ⟨fun hsave hrestore => ?_, fun ⟨_, hs⟩ ⟨_, hv⟩ hsave hrestore => ?_⟩
  · cases hsave
    cases hrestore
    exact hr0
  · cases hsave
    cases hrestore
    have params : v.params = s.params := hparams
    have saved : v.r0 = s.readPsu := hr0
    have zero {x : State} (hx : x.psu &&& ~~~psuWriteMask x.params.psu43 = 0) {k : Nat} (hk : k < 8)
        (hw : ¬PsuWritable x.params.psu43 k) : x.psu.getLsbD k = false := by
      rw [← psuWriteMask_iff _ hk, Bool.not_eq_true] at hw
      have bit : (x.psu &&& ~~~psuWriteMask x.params.psu43).getLsbD k = false := by rw [hx]; exact BitVec.getLsbD_zero
      rwa [getLsbD_and_not _ _ hk, hw, Bool.not_false, Bool.and_true] at bit
    refine BitVec.eq_of_getLsbD_eq fun k hk => ?_
    obtain ⟨written, kept⟩ := getLsbD_writePsu v v.r0 hk
    by_cases hw : PsuWritable v.params.psu43 k
    · have hk7 : k ≠ 7 := by
        rintro rfl
        exact not_psuWritable_seven _ hw
      rw [advance_psu, written hw, saved]
      obtain ⟨read, -⟩ := readPsu_bits s (k := k) (by omega)
      exact read (params ▸ hw)
    · rw [advance_psu, kept hw, zero hv hk hw, zero hs hk (params ▸ hw)]

/-! HALT and NOP. -/

/-- Settles O56 by evaluation. -/
theorem haltAndNop : Obligations.HaltAndNop :=
  fun _ => ⟨⟨_, rfl, rfl, rfl, rfl⟩, ⟨_, rfl, rfl, rfl⟩⟩

/-! Ports. -/

theorem inputByte_events (s : State) : s.inputByte.2.events = s.events := by
  rcases inputByte_cases s with ⟨b, rest, -, e⟩ | ⟨-, e⟩ <;> rw [e]

/-- A port read to a register, CC from it, and the next instruction (R322). -/
theorem input_effect (s : State) (p : Port) (r : Reg) (len : Nat) :
    let v := (s.ioRead p).1
    let t := (((s.ioRead p).2.setReg r v).setCC v).advance len
    t.reg r = v ∧ CcSays (pslCC t.psl) v ∧ t.events = .ioRead p v :: s.events ∧ t.pc = s.nextAddr len ∧
      QuietFrame s t [r] 0xC0 0 ∧
      (∀ b rest, s.inputs = b :: rest → v = b ∧ t.inputs = rest ∧ t.freeCount = s.freeCount) ∧
      (s.inputs = [] → t.inputs = [] ∧ t.freeCount = s.freeCount + 1) := by
  intro v t
  have read : QuietFrame s (s.ioRead p).2 [] 0 0 := by
    refine ⟨⟨fun b n _ => regAt_congr (ioRead_r0 ..) (ioRead_bank0 ..) (ioRead_bank1 ..) b n, ?_⟩, fun a => ?_, ?_⟩
    · simp
    · rw [State.peek, ioRead_mem, State.peek]
    · simp
  have masked : withCC (s.ioRead p).2.psl (ccOf v) &&& ~~~0xC0#8 = s.psl &&& ~~~0xC0#8 := by
    rw [withCC_masked, ioRead_psl]
  refine ⟨?_, ?_, ?_, ?_, (read.setReg (by rw [ioRead_psl]) r v).setPsl masked, fun b rest h => ?_, fun h => ?_⟩
  · rw [reg_advance, State.setCC, reg_setPsl, pslRS_withCC]
    exact (reg_setReg (s.ioRead p).2 r v r).trans (if_pos rfl)
  · rw [advance_psl, setCC_psl, pslCC_withCC]
    exact ccOf_says v
  · exact congrArg _ (inputByte_events s)
  · simp [t, State.nextAddr]
  · have e := inputByte_of_cons h
    exact ⟨congrArg (·.1) e, congrArg (·.2.inputs) e, congrArg (·.2.freeCount) e⟩
  · have e := inputByte_of_nil h
    exact ⟨(congrArg (·.2.inputs) e).trans h, congrArg (·.2.freeCount) e⟩

/-- Settles O57: the three reads differ in their port and their length. -/
theorem portReadEffect : Obligations.PortReadEffect := by
  intro r port s x hx
  simp only [List.mem_cons, List.not_mem_nil, or_false] at hx
  rcases hx with rfl | rfl | rfl
  · exact ⟨_, _, rfl, input_effect s .ctrl r 1⟩
  · exact ⟨_, _, rfl, input_effect s .data r 1⟩
  · exact ⟨_, _, rfl, input_effect s (.ext port) r 2⟩

/-- Settles O58: each write is the record of one event. -/
theorem portWriteEffect : Obligations.PortWriteEffect := by
  intro r port s x hx
  simp only [List.mem_cons, List.not_mem_nil, or_false] at hx
  rcases hx with rfl | rfl | rfl <;> exact ⟨_, rfl, rfl, rfl, rfl⟩

end Sys2Proof.Machine
end

section
/-! The rotates (R340 to R344): their flags in both profiles, their values as rotations of eight or nine bits, and that each
undoes the other. -/

namespace Sys2Proof.Machine

/-! The flags of a rotate. -/

theorem setBit_comm (v : Byte) {j k : Nat} (hj : j < 8) (hk : k < 8) (hne : j ≠ k) (a b : Bool) :
    setBit (setBit v j a) k b = setBit (setBit v k b) j a := by
  refine BitVec.eq_of_getLsbD_eq fun i _ => ?_
  simp only [getLsbD_setBit _ _ hj, getLsbD_setBit _ _ hk]
  by_cases hi : i = k
  · rw [if_pos hi, if_neg (by omega), if_pos hi]
  · rw [if_neg hi, if_neg hi]

@[simp] theorem pslWC_withC (psl : Byte) (c : Bool) : pslWC (withC psl c) = pslWC psl :=
  (getLsbD_setBit _ _ (by decide) _ _).trans (if_neg (by decide))

@[simp] theorem pslC_withC (psl : Byte) (c : Bool) : pslC (withC psl c) = c :=
  (getLsbD_setBit _ _ (by decide) _ _).trans (if_pos rfl)

@[simp] theorem pslC_withCC (psl : Byte) (cc : Cond) : pslC (withCC psl cc) = pslC psl :=
  getLsbD_withCC ..

/-- Agreement outside a mask is agreement outside any greater one. -/
theorem masked_mono {x y m m' : Byte} (h : x &&& ~~~m = y &&& ~~~m)
    (hm : ∀ k < 8, m'.getLsbD k = false → m.getLsbD k = false) : x &&& ~~~m' = y &&& ~~~m' :=
  masked_eq fun k hk hk' => bit_eq_of_masked h hk (hm k hk hk')

/-- Under `manual` and WC = 1 a rotate writes the flags that a sum writes, each with its own value. -/
theorem rotateFlags_manual_of_wc {psl : Byte} (h : pslWC psl = true) (old value : Byte) (out : Bool) :
    rotateFlags .manual psl old value out =
      sumFlags psl value out (value.getLsbD 5) (value.msb != old.msb) := by
  simp only [rotateFlags, h, if_true, pslWC_withC, sumFlags]
  simp only [withC, withIDC, withOVF]
  rw [setBit_comm psl (by decide) (by decide) (by decide), setBit_comm _ (j := 0) (k := 2) (by decide) (by decide)
    (by decide), setBit_comm psl (j := 5) (k := 2) (by decide) (by decide) (by decide)]

/-- What a rotate does to PSL: C takes the bit shifted out with WC = 1 and is kept with WC = 0; the rest by the profile (R340;
section 3 of 93_implementation_defined.md). -/
theorem rotateFlags_effect (profile : Config.FlagProfile) (psl old value : Byte) (out : Bool) :
    let p := rotateFlags profile psl old value out
    p &&& ~~~0xE5#8 = psl &&& ~~~0xE5#8 ∧ pslC p = (if pslWC psl then out else pslC psl) ∧
      (profile = .card → p &&& ~~~0x01#8 = psl &&& ~~~0x01#8) ∧
      (profile = .manual → CcSays (pslCC p) value ∧
        (pslWC psl = false → p &&& ~~~0xC0#8 = psl &&& ~~~0xC0#8) ∧
        (pslWC psl = true → pslIDC p = value.getLsbD 5 ∧ pslOVF p = (value.getLsbD 7 ^^ old.getLsbD 7))) := by
  cases profile with
  | card =>
    cases h : pslWC psl with
    | false =>
      have kept : rotateFlags .card psl old value out = psl := by simp [rotateFlags, h]
      rw [kept]
      exact ⟨rfl, rfl, fun _ => rfl, nofun⟩
    | true =>
      have carry : rotateFlags .card psl old value out = withC psl out := by simp [rotateFlags, h]
      rw [carry]
      have masked := withC_masked psl out
      exact ⟨masked_mono masked (by decide), pslC_withC .., fun _ => masked, nofun⟩
  | manual =>
    cases h : pslWC psl with
    | false =>
      have cc : rotateFlags .manual psl old value out = withCC psl (ccOf value) := by simp [rotateFlags, h]
      have masked := withCC_masked psl (ccOf value)
      dsimp only
      rw [cc, pslCC_withCC]
      exact ⟨masked_mono masked (by decide), pslC_withCC .., nofun,
        fun _ => ⟨ccOf_says value, fun _ => masked, nofun⟩⟩
    | true =>
      rw [rotateFlags_manual_of_wc h]
      obtain ⟨c, idc, ovf, cc⟩ := sumFlags_flags psl value out (value.getLsbD 5) (value.msb != old.msb)
      dsimp only
      rw [c, idc, ovf, cc]
      exact ⟨sumFlags_masked .., rfl, nofun, fun _ => ⟨ccOf_says value, nofun, fun _ => ⟨rfl, rfl⟩⟩⟩

/-! The value of a rotate. -/

/-- With WC = 0 the eight bits rotate, with WC = 1 the nine of C and the register (R340). -/
theorem rotateLeft_value (profile : Config.FlagProfile) (psl v : Byte) :
    (pslWC psl = false → (rotateLeft profile psl v).value = v.rotateLeft 1) ∧
      (pslWC psl = true → BitVec.ofBool (v.getLsbD 7) ++ (rotateLeft profile psl v).value =
        (BitVec.ofBool (pslC psl) ++ v).rotateLeft 1) := by
  have eight : ∀ v : Byte, v.extractLsb' 0 7 ++ BitVec.ofBool (v.getLsbD 7) = v.rotateLeft 1 := by decide
  have nine : ∀ (c : Bool) (v : Byte), BitVec.ofBool (v.getLsbD 7) ++ (v.extractLsb' 0 7 ++ BitVec.ofBool c) =
    (BitVec.ofBool c ++ v).rotateLeft 1 := by decide
  refine ⟨fun h => ?_, fun h => ?_⟩
  · simp only [rotateLeft, h]
    exact eight v
  · simp only [rotateLeft, h]
    exact nine (pslC psl) v

theorem rotateRight_value (profile : Config.FlagProfile) (psl v : Byte) :
    (pslWC psl = false → (rotateRight profile psl v).value = v.rotateRight 1) ∧
      (pslWC psl = true → BitVec.ofBool (v.getLsbD 0) ++ (rotateRight profile psl v).value =
        (BitVec.ofBool (pslC psl) ++ v).rotateRight 1) := by
  have eight : ∀ v : Byte, BitVec.ofBool (v.getLsbD 0) ++ v.extractLsb' 1 7 = v.rotateRight 1 := by decide
  have nine : ∀ (c : Bool) (v : Byte), BitVec.ofBool (v.getLsbD 0) ++ (BitVec.ofBool c ++ v.extractLsb' 1 7) =
    (BitVec.ofBool c ++ v).rotateRight 1 := by decide
  refine ⟨fun h => ?_, fun h => ?_⟩
  · simp only [rotateRight, h]
    exact eight v
  · simp only [rotateRight, h]
    exact nine (pslC psl) v

/-! The instructions. -/

/-- A rotate of register r from `s` to `t`: `eight` is what WC = 0 makes of the register, `nine` what WC = 1 makes of C and the
register (R340; section 3 of 93_implementation_defined.md). -/
def Rotated (r : Reg) (s t : State) (eight : Byte) (nine : BitVec 9) : Prop :=
  (pslWC s.psl = false → pslC t.psl = pslC s.psl ∧ t.reg r = eight) ∧
    (pslWC s.psl = true → BitVec.ofBool (pslC t.psl) ++ t.reg r = nine) ∧
    t.pc = s.nextAddr 1 ∧ QuietFrame s t [r] 0xE5 0 ∧ SameTraffic s t ∧
    (s.params.flagProfile = .card → t.psl &&& ~~~0x01#8 = s.psl &&& ~~~0x01#8) ∧
    (s.params.flagProfile = .manual → CcSays (pslCC t.psl) (t.reg r) ∧
      (pslWC s.psl = false → t.psl &&& ~~~0xC0#8 = s.psl &&& ~~~0xC0#8) ∧
      (pslWC s.psl = true → pslIDC t.psl = (t.reg r).getLsbD 5 ∧
        pslOVF t.psl = ((t.reg r).getLsbD 7 ^^ (s.reg r).getLsbD 7)))

/-- An instruction that writes a value and the flags of a rotate with `out` shifted out rotates the register. -/
theorem rotated_of_value {s : State} {r : Reg} {value eight : Byte} {out : Bool} {nine : BitVec 9}
    (h8 : pslWC s.psl = false → value = eight) (h9 : pslWC s.psl = true → BitVec.ofBool out ++ value = nine) :
    Rotated r s
      (((s.setReg r value).setPsl (rotateFlags s.params.flagProfile s.psl (s.reg r) value out)).advance 1) eight nine := by
  obtain ⟨masked, c, card, manual⟩ := rotateFlags_effect s.params.flagProfile s.psl (s.reg r) value out
  have reg : (((s.setReg r value).setPsl (rotateFlags s.params.flagProfile s.psl (s.reg r) value out)).advance 1).reg r =
      value := by
    rw [reg_advance, reg_setPsl, pslRS_eq_of_masked masked rfl]
    exact (reg_setReg s r value r).trans (if_pos rfl)
  unfold Rotated
  rw [reg, advance_psl, setPsl_psl, c]
  refine ⟨fun h => ⟨by rw [h]; rfl, h8 h⟩, fun h => ?_, rfl, ((QuietFrame.refl s).setReg rfl r _).setPsl masked,
    ⟨rfl, rfl, rfl⟩, card, manual⟩
  rw [h, if_pos rfl, h9 h]

theorem rrl_rotates (r : Reg) (s : State) : ∃ t, exec (.rrl r) s = .next t ∧
    Rotated r s t ((s.reg r).rotateLeft 1) ((BitVec.ofBool (pslC s.psl) ++ s.reg r).rotateLeft 1) := by
  obtain ⟨eight, nine⟩ := rotateLeft_value s.params.flagProfile s.psl (s.reg r)
  exact ⟨_, rfl, rotated_of_value eight nine⟩

theorem rrr_rotates (r : Reg) (s : State) : ∃ t, exec (.rrr r) s = .next t ∧
    Rotated r s t ((s.reg r).rotateRight 1) ((BitVec.ofBool (pslC s.psl) ++ s.reg r).rotateRight 1) := by
  obtain ⟨eight, nine⟩ := rotateRight_value s.params.flagProfile s.psl (s.reg r)
  exact ⟨_, rfl, rotated_of_value eight nine⟩

/-- Settles O59: RRL and RRR rotate the register, each in its direction. -/
theorem rotateEffect : Obligations.RotateEffect := by
  intro r s left
  cases left with
  | true => exact rrl_rotates r s
  | false => exact rrr_rotates r s

/-- Two rotates in a row whose rotations undo each other restore the register, C and, under `card`, PSL (R343, R344). -/
theorem rotated_twice {r : Reg} {s t u : State} {eight eight' : Byte} {nine nine' : BitVec 9}
    (h : Rotated r s t eight nine) (h' : Rotated r t u eight' nine') (undo8 : t.reg r = eight → eight' = s.reg r)
    (undo9 : BitVec.ofBool (pslC t.psl) ++ t.reg r = nine → nine' = BitVec.ofBool (pslC s.psl) ++ s.reg r) :
    u.reg r = s.reg r ∧ pslC u.psl = pslC s.psl ∧ (s.params.flagProfile = .card → u.psl = s.psl) := by
  obtain ⟨zero, one, -, ⟨⟨-, masked, -, -, params, -⟩, -⟩, -, card, -⟩ := h
  obtain ⟨zero', one', -, -, -, card', -⟩ := h'
  have wc : pslWC t.psl = pslWC s.psl := bit_eq_of_masked masked (k := 3) (by decide) rfl
  have restored : u.reg r = s.reg r ∧ pslC u.psl = pslC s.psl := by
    cases hwc : pslWC s.psl with
    | false =>
      obtain ⟨c, reg⟩ := zero hwc
      obtain ⟨c', reg'⟩ := zero' (wc.trans hwc)
      exact ⟨reg'.trans (undo8 reg), c'.trans c⟩
    | true =>
      have nine := (one' (wc.trans hwc)).trans (undo9 (one hwc))
      have low := congrArg (BitVec.extractLsb' 0 8) nine
      have high := congrArg (BitVec.extractLsb' 8 1) nine
      rw [extractLow_append, extractLow_append] at low
      rw [extractHigh_append, extractHigh_append] at high
      exact ⟨low, BitVec.ofBool_eq_iff_eq.mp high⟩
  obtain ⟨reg, c⟩ := restored
  refine ⟨reg, c, fun hp => BitVec.eq_of_getLsbD_eq fun k hk => ?_⟩
  by_cases hk0 : k = 0
  · subst hk0
    exact c
  · have notC : ∀ k < 8, k ≠ 0 → (0x01#8).getLsbD k = false := by decide
    have masked := (card' (by rw [params, hp])).trans (card hp)
    exact bit_eq_of_masked masked hk (notC k hk hk0)

/-- Settles O60: a rotation by one left and one right are inverse, of eight bits and of nine. -/
theorem rotatesAreInverse : Obligations.RotatesAreInverse := by
  have eight : ∀ v : BitVec 8, (v.rotateLeft 1).rotateRight 1 = v ∧ (v.rotateRight 1).rotateLeft 1 = v := by decide
  have nine : ∀ v : BitVec 9, (v.rotateLeft 1).rotateRight 1 = v ∧ (v.rotateRight 1).rotateLeft 1 = v := by decide
  intro r s t u h
  rcases h with ⟨ht, hu⟩ | ⟨ht, hu⟩
  · exact rotated_twice (of_exec ht (rrl_rotates r s)) (of_exec hu (rrr_rotates r t)) (fun e => by rw [e, (eight _).1])
      (fun e => by rw [e, (nine _).1])
  · exact rotated_twice (of_exec ht (rrr_rotates r s)) (of_exec hu (rrl_rotates r t)) (fun e => by rw [e, (eight _).2])
      (fun e => by rw [e, (nine _).2])

end Sys2Proof.Machine
end
